-- ==== Sys2Proof/Word.lean ====
section
/-! DEFINITION. The two data types of 00_scope.md rule R6. -/

namespace Sys2Proof

/-- `Byte` of rule R6: unsigned, arithmetic modulo 256. -/
abbrev Byte := BitVec 8

/-- `Word` of rule R6: unsigned 16-bit address, arithmetic modulo 65536. -/
abbrev Word := BitVec 16

end Sys2Proof
end

