-- ==== Sys2Proof/Machine/Bits.lean ====
section
/-! DEFINITION. The pure helpers of 00_scope.md rules R7 and R8. -/

namespace Sys2Proof.Machine

/-- `lo(w) = w[7:0]` (R8). -/
def loByte (w : Word) : Byte := w.extractLsb' 0 8

/-- `hi(w) = w[15:8]` (R8). -/
def hiByte (w : Word) : Byte := w.extractLsb' 8 8

/-- `word(h, l) = h :: l` (R8): the little-endian assembly of R54 puts `l` first in memory. -/
def mkWord (h l : Byte) : Word := h ++ l

/-- `page(w) = hi(w)` (R8). -/
def page (w : Word) : Byte := hiByte w

/-- `crossed(a, b) = (page(a) != page(b))` (R8). -/
def crossed (a b : Word) : Bool := page a != page b

/-- `sext_16(v)` (R7). -/
def sext16 (v : Byte) : Word := v.signExtend 16

/-- `zext_16(v)` (R7). -/
def zext16 (v : Byte) : Word := v.setWidth 16

/-- `v[k]` of a Byte (R6). -/
def bitOf (v : Byte) (k : Nat) : Bool := v.getLsbD k

end Sys2Proof.Machine
end

