-- ==== Sys2Proof/Config.lean ====
section
/-! DEFINITION. The fixed parameters of 00_scope.md rule R5, and the one named value of unwritten memory. -/

namespace Sys2Proof.Config

/-- `MEM_SIZE` (R5). -/
def memSize : Nat := 65536

/-- The page byte of `STACK_BASE` = 0x0100 (R5, R22). -/
def stackPage : Byte := 0x01#8

/-- `VEC_NMI`: low byte here, high byte at 0xFFFB (R5, R219). -/
def vecNmi : Word := 0xFFFA#16

/-- `VEC_RESET`: low byte here, high byte at 0xFFFD (R5, R219). -/
def vecReset : Word := 0xFFFC#16

/-- `VEC_IRQ`, shared by IRQ and BRK: low byte here, high byte at 0xFFFF (R5, R219). -/
def vecIrq : Word := 0xFFFE#16

/-- `RESET_SP` (R5, R39). -/
def resetSp : Byte := 0xFD#8

/-- `INT_ENTRY_CYCLES`, the cost of an NMI or IRQ entry (R5, R33, D4). -/
def intEntryCycles : Nat := 7

/-- What a byte of memory that nothing has written reads as.
DESIGN CHOICE, unsafe: the spec leaves it open (R40, D6); log entry 2. -/
def unlistedByte : Byte := 0x00#8

end Sys2Proof.Config
end

