-- ==== Sys2Proof/Machine/State.lean ====
section
/-! DEFINITION. The state of 10_state.md rule R20, plain data, and its value after reset. -/

namespace Sys2Proof.Machine

/-- Memory `M` (R31) as a list of (address, byte) pairs; an address that is not listed reads
`Config.unlistedByte`. `Memory.wf` (Machine/Ops.lean) is the canonical form. -/
abbrev Memory := List Host.Cell

/-- The status register `P` (R24): seven flag bits. Bit 5 has no storage (R30). -/
structure Status where
  /-- Negative, bit 7. -/
  n : Bool
  /-- Overflow, bit 6. -/
  v : Bool
  /-- Break, bit 4: inert; only the host's accessors touch it (R29). DESIGN CHOICE to keep it, safe; log entry 5. -/
  b : Bool
  /-- Decimal, bit 3. -/
  d : Bool
  /-- Interrupt-disable, bit 2. -/
  i : Bool
  /-- Zero, bit 1. -/
  z : Bool
  /-- Carry, bit 0. -/
  c : Bool
  deriving DecidableEq, Repr

/-- The state at an instruction boundary (R20), with the input `irq_line` held as a field (R35). -/
structure State where
  /-- Accumulator (R21). -/
  a : Byte
  /-- Index register X (R21). -/
  x : Byte
  /-- Index register Y (R21). -/
  y : Byte
  /-- Stack pointer; the true stack address is 0x0100 + SP (R22). -/
  sp : Byte
  /-- Program counter (R23). -/
  pc : Word
  /-- Status register (R24). -/
  p : Status
  /-- Memory (R31). -/
  mem : Memory
  /-- Cycle counter, unbounded (R33). -/
  cyc : Nat
  /-- Pending NMI edge (R35). -/
  nmiPending : Bool
  /-- The level the host last drove on the IRQ line (R35, R235). DESIGN CHOICE to hold the input here, unsafe; log entry 3. -/
  irqLine : Bool
  deriving DecidableEq, Repr

/-- How a step can stop with a fault. -/
inductive Fault where
  /-- Raised by the one instruction `undefined opcode`, that is by the fetch of one of the 105
  undefined opcode values at `pc` (R200, R210). Safe: policy (b) of decision D1, the state is unchanged. -/
  | illegalOpcode (pc : Word) (opcode : Byte)
  deriving DecidableEq, Repr

/-- How a step can be refused. -/
inductive Refusal where
  /-- Raised by no arm of this model: every instruction has a meaning. Safe. -/
  | notModelled (mnemonic : String)
  deriving DecidableEq, Repr

/-- The outcome of a step or of one instruction. -/
abbrev Result := Host.Outcome State Fault Refusal

/-- One named representative of the power-on state (`POWER_ON`, R5, R40, R242).
DESIGN CHOICE, unsafe: the spec leaves every field open; log entries 1, 2, 3 and 5. -/
def State.powerOn : State :=
  { a := 0x00#8, x := 0x00#8, y := 0x00#8, sp := 0x00#8, pc := 0x0000#16,
    p := { n := false, v := false, b := false, d := false, i := false, z := false, c := false },
    mem := [], cyc := 0, nmiPending := false, irqLine := false }

/-- The state right after `reset()` (R39, R240), from `State.powerOn`: SP, I, D, CYC and nmi_pending as
the spec says; PC is the Word at 0xFFFC and 0xFFFD, two unwritten bytes (log entry 2); every other field
keeps its power-on value (R241; log entries 1, 3, 5). -/
def State.reset : State :=
  { State.powerOn with
    sp := Config.resetSp
    pc := Config.unlistedByte ++ Config.unlistedByte
    p := { State.powerOn.p with d := false, i := true }
    cyc := 0
    nmiPending := false }

end Sys2Proof.Machine
end

