-- ==== Sys2Proof/Machine/Flags.lean ====
section
/-! DEFINITION. Every flag computation: 10_state.md R26 to R28, 43_logic_arith.md R143 to R152,
44_incdec_shift.md R160 to R169. -/

namespace Sys2Proof.Machine

/-! ## The status register -/

/-- `setZN(v)` (R26). -/
def setZN (v : Byte) (p : Status) : Status :=
  { p with z := v == 0x00#8, n := bitOf v 7 }

/-- `P_image(b) = N :: V :: 1 :: b :: D :: I :: Z :: C` (R27). -/
def pImage (b : Bool) (p : Status) : Byte :=
  BitVec.ofBool p.n ++ BitVec.ofBool p.v ++ BitVec.ofBool true ++ BitVec.ofBool b ++
    BitVec.ofBool p.d ++ BitVec.ofBool p.i ++ BitVec.ofBool p.z ++ BitVec.ofBool p.c

/-- `P_load(v)`: six stored flags from the byte, bits 5 and 4 ignored (R28). -/
def pLoad (v : Byte) (p : Status) : Status :=
  { p with n := bitOf v 7, v := bitOf v 6, d := bitOf v 3, i := bitOf v 2, z := bitOf v 1, c := bitOf v 0 }

/-! ## Addition and subtraction -/

/-- What an addition or subtraction delivers: `(r, c', v', z', n')` (R145, R146). -/
structure AluResult where
  /-- The result byte. -/
  r : Byte
  /-- Carry out. -/
  c : Bool
  /-- Signed overflow. -/
  v : Bool
  /-- Zero. -/
  z : Bool
  /-- Negative. -/
  n : Bool
  deriving DecidableEq, Repr

/-- `adc_bin(a, m, c)` (R145). -/
def adcBin (a m : Byte) (c : Bool) : AluResult :=
  let s := a.toNat + m.toNat + c.toNat
  let r := BitVec.ofNat 8 s
  { r := r, c := decide (256 ≤ s), v := bitOf ((a ^^^ r) &&& (m ^^^ r)) 7, z := r == 0x00#8, n := bitOf r 7 }

/-- `bcd_adc(a, m, c)`, the NMOS function (R146, `BCD_MODEL = nmos`; DESIGN CHOICE, unsafe; log entry 7). -/
def bcdAdc (a m : Byte) (c : Bool) : AluResult :=
  let al := a.toNat % 16 + m.toNat % 16 + c.toNat
  let al := if 0x0A ≤ al then (al + 0x06) % 16 + 0x10 else al
  let s := a.toNat / 16 * 16 + m.toNat / 16 * 16 + al
  let n := s.testBit 7
  let v := (bitOf a 7 ^^ n) && (bitOf m 7 ^^ n)
  let s := if 0xA0 ≤ s then s + 0x60 else s
  { r := BitVec.ofNat 8 s, c := decide (0x100 ≤ s), v := v,
    z := (a.toNat + m.toNat + c.toNat) % 256 == 0, n := n }

/-- `bcd_sbc(a, m, c)`, the result byte only (R148, `BCD_MODEL = nmos`; DESIGN CHOICE, unsafe; log entry 7). -/
def bcdSbc (a m : Byte) (c : Bool) : Byte :=
  let al : Int := (a.toNat % 16 : Nat) - (m.toNat % 16 : Nat) + (c.toNat : Nat) - 1
  let al : Int := if al < 0 then (al - 0x06) % 16 - 0x10 else al
  let s : Int := (a.toNat / 16 * 16 : Nat) - (m.toNat / 16 * 16 : Nat) + al
  let s : Int := if s < 0 then s - 0x60 else s
  BitVec.ofInt 8 s

/-- The result of `ADC` (R144): D selects the arithmetic. -/
def adcResult (a m : Byte) (p : Status) : AluResult :=
  if p.d then bcdAdc a m p.c else adcBin a m p.c

/-- The result of `SBC` (R147): the flags are the binary ones in both modes. -/
def sbcResult (a m : Byte) (p : Status) : AluResult :=
  let bin := adcBin a (m ^^^ 0xFF#8) p.c
  if p.d then { bin with r := bcdSbc a m p.c } else bin

/-- `C <- c'; V <- v'; Z <- z'; N <- n'` (R144, R147). -/
def putCVZN (u : AluResult) (p : Status) : Status :=
  { p with c := u.c, v := u.v, z := u.z, n := u.n }

/-! ## Compare and bit test -/

/-- `compare(r, m)` (R152). -/
def compareFlags (r m : Byte) (p : Status) : Status :=
  { p with c := decide (m.toNat ≤ r.toNat), z := r == m, n := bitOf (r - m) 7 }

/-- The flags of `BIT` (R143). -/
def bitTestFlags (a m : Byte) (p : Status) : Status :=
  { p with z := (a &&& m) == 0x00#8, n := bitOf m 7, v := bitOf m 6 }

/-! ## Read-modify-write operations: the new byte and the new status -/

/-- A read-modify-write operation on an operand byte and the status. -/
abbrev RmwOp := Byte → Status → Byte × Status

/-- `INC` (R160). -/
def incOp : RmwOp := fun m p =>
  let r := m + 1#8
  (r, setZN r p)

/-- `DEC` (R161). -/
def decOp : RmwOp := fun m p =>
  let r := m - 1#8
  (r, setZN r p)

/-- `ASL` (R166). -/
def aslOp : RmwOp := fun m p =>
  let r := m <<< 1
  (r, { setZN r p with c := bitOf m 7 })

/-- `LSR` (R167). -/
def lsrOp : RmwOp := fun m p =>
  let r := m >>> 1
  (r, { setZN r p with c := bitOf m 0 })

/-- `ROL` (R168): the old carry enters bit 0. -/
def rolOp : RmwOp := fun m p =>
  let r := (m <<< 1) ||| (BitVec.ofBool p.c).setWidth 8
  (r, { setZN r p with c := bitOf m 7 })

/-- `ROR` (R169): the old carry enters bit 7. -/
def rorOp : RmwOp := fun m p =>
  let r := (m >>> 1) ||| ((BitVec.ofBool p.c).setWidth 8 <<< 7)
  (r, { setZN r p with c := bitOf m 0 })

end Sys2Proof.Machine
end

