-- ==== Sys2Proof/Machine/Ops.lean ====
section
/-! DEFINITION. The named operations over memory and registers: 20_memory.md R50 to R59, the end of an
instruction (R10), and taking an interrupt and returning from one (60_exceptions.md R220 to R223). -/

namespace Sys2Proof.Machine

/-! ## Memory as a list of cells -/

/-- The byte at an address: the first pair listed for it, else the unwritten byte. -/
def Memory.read : Memory → Nat → Byte
  | [], _ => Config.unlistedByte
  | (k, w) :: rest, a => if k = a then w else Memory.read rest a

/-- Puts a pair into a list sorted by address, replacing one that stands there. -/
def Memory.insert : Memory → Nat → Byte → Memory
  | [], a, v => [(a, v)]
  | (k, w) :: rest, a, v =>
    if a < k then (a, v) :: (k, w) :: rest
    else if k = a then (a, v) :: rest
    else (k, w) :: Memory.insert rest a v

/-- Stores a byte, keeping the canonical form: writing the unwritten byte removes the pair. -/
def Memory.write (m : Memory) (a : Nat) (v : Byte) : Memory :=
  if v = Config.unlistedByte then m.filter (fun cell => cell.1 != a) else Memory.insert m a v

/-- The canonical form: addresses strictly rising and inside the space, no pair equal to what an
unlisted address reads as. Equal memories are then equal lists. -/
def Memory.wf (m : Memory) : Bool :=
  decide (m.Pairwise (fun p q => p.1 < q.1)) &&
    m.all (fun cell => decide (cell.1 < Config.memSize) && cell.2 != Config.unlistedByte)

/-! ## Bus transactions -/

/-- `MemRead(addr, 1)` (R51). -/
def State.readMem (s : State) (a : Word) : Byte := Memory.read s.mem a.toNat

/-- `MemWrite(addr, 1, v)` (R52). -/
def State.writeMem (s : State) (a : Word) (v : Byte) : State :=
  { s with mem := Memory.write s.mem a.toNat v }

/-- `read16(addr)` (R55). -/
def State.read16 (s : State) (a : Word) : Word := mkWord (s.readMem (a + 1#16)) (s.readMem a)

/-- `read16_zp(z)` (R55): both bytes come from page 0. -/
def State.read16Zp (s : State) (z : Byte) : Word :=
  mkWord (s.readMem (zext16 (z + 1#8))) (s.readMem (zext16 z))

/-- `read16_pagewrap(addr)` (R55): the high byte comes from the same page. -/
def State.read16PageWrap (s : State) (a : Word) : Word :=
  mkWord (s.readMem (mkWord (hiByte a) (loByte a + 1#8))) (s.readMem a)

/-! ## The stack -/

/-- The true stack address `0x0100 + SP` (R22). -/
def State.stackAddr (s : State) : Word := mkWord Config.stackPage s.sp

/-- `push(v)`: store, then decrement (R58). -/
def State.push (s : State) (v : Byte) : State :=
  { s.writeMem s.stackAddr v with sp := s.sp - 1#8 }

/-- Pushes a Word, high byte first (R54, R172, R220). -/
def State.pushWord (s : State) (w : Word) : State := (s.push (hiByte w)).push (loByte w)

/-- The state after `pull()`: SP incremented (R59). -/
def State.pulled (s : State) : State := { s with sp := s.sp + 1#8 }

/-- The byte `pull()` returns, read after the increment (R59). -/
def State.pullByte (s : State) : Byte := s.pulled.readMem s.pulled.stackAddr

/-! ## The end of an instruction (R10) -/

/-- `pc <- PC + len` modulo 65536 and `CYC <- CYC + cycles`. -/
def State.advance (s : State) (len cycles : Nat) : State :=
  { s with pc := s.pc + BitVec.ofNat 16 len, cyc := s.cyc + cycles }

/-- `pc <- target` and `CYC <- CYC + cycles`. -/
def State.jump (s : State) (target : Word) (cycles : Nat) : State :=
  { s with pc := target, cyc := s.cyc + cycles }

/-! ## Interrupts -/

/-- The three pushes of an entry: the return address, high byte first, then the status byte (R220). -/
def State.pushFrame (s : State) (ret : Word) (b : Bool) : State := (s.pushWord ret).push (pImage b s.p)

/-- `I <- 1` (R220). -/
def State.maskIrq (s : State) : State := { s with p := { s.p with i := true } }

/-- `interrupt_entry(vector, b)` with return address `ret` (R220): pushes, then I, then the vector. -/
def State.interruptEntry (s : State) (vector ret : Word) (b : Bool) (cycles : Nat) : State :=
  (s.pushFrame ret b).maskIrq.jump ((s.pushFrame ret b).maskIrq.read16 vector) cycles

/-- NMI entry (R221): the request is cleared, then the shared entry with `b = 0`. -/
def State.nmiEntry (s : State) : State :=
  State.interruptEntry { s with nmiPending := false } Config.vecNmi s.pc false Config.intEntryCycles

/-- IRQ entry (R222). The line is not changed. -/
def State.irqEntry (s : State) : State :=
  s.interruptEntry Config.vecIrq s.pc false Config.intEntryCycles

/-- The sampling at an instruction boundary (R215, R216): the state after the entry that is due, NMI before IRQ, and
none where the step fetches. -/
def State.takeInterrupt (s : State) : Option State :=
  if s.nmiPending then some s.nmiEntry
  else if s.irqLine && !s.p.i then some s.irqEntry
  else none

/-- The return from an interrupt (R199, R223): status, then the address, low byte first. -/
def State.interruptReturn (s : State) (cycles : Nat) : State :=
  let s1 := s.pulled
  let s2 := s1.pulled
  let s3 := s2.pulled
  State.jump { s3 with p := pLoad s.pullByte s.p } (mkWord s2.pullByte s1.pullByte) cycles

/-- `reset()` (R240): a call of the host between steps, not a step. -/
def State.resetCall (s : State) : State :=
  { s with
    sp := Config.resetSp
    p := { s.p with d := false, i := true }
    pc := s.read16 Config.vecReset
    cyc := 0
    nmiPending := false }

end Sys2Proof.Machine
end

