-- ==== Sys2Proof/Machine/Operands.lean ====
section
/-! DEFINITION. The addressing-mode resolver (40_addressing_modes.md R100 to R113) and the operand access
classes with their penalties (R114 to R116). -/

namespace Sys2Proof.Machine

/-! ## The modes that name a byte of memory -/

/-- An addressing mode with a data effective address, and its operand bytes (R104 to R109, R111, R112). -/
inductive MemMode where
  /-- Zero page (R104). -/
  | zp (z : Byte)
  /-- Zero page,X (R105). -/
  | zpx (z : Byte)
  /-- Zero page,Y (R106). -/
  | zpy (z : Byte)
  /-- Absolute (R107). -/
  | abs (w : Word)
  /-- Absolute,X (R108). -/
  | absx (w : Word)
  /-- Absolute,Y (R109). -/
  | absy (w : Word)
  /-- Indexed indirect (X) (R111). -/
  | indx (z : Byte)
  /-- Indirect indexed (Y) (R112). -/
  | indy (z : Byte)
  deriving DecidableEq, Repr

/-- `base` of R108, R109, R112: the address before the index; in the other modes there is no index on
the address and the base is the effective address itself. -/
def MemMode.base : MemMode → State → Word
  | .zp z, _ => zext16 z
  | .zpx z, s => zext16 (z + s.x)
  | .zpy z, s => zext16 (z + s.y)
  | .abs w, _ => w
  | .absx w, _ => w
  | .absy w, _ => w
  | .indx z, s => s.read16Zp (z + s.x)
  | .indy z, s => s.read16Zp z

/-- The effective address `ea` (R104 to R109, R111, R112). -/
def MemMode.ea (m : MemMode) (s : State) : Word :=
  match m with
  | .absx _ => m.base s + zext16 s.x
  | .absy _ => m.base s + zext16 s.y
  | .indy _ => m.base s + zext16 s.y
  | _ => m.base s

/-- `page_crossed = crossed(base, ea)` (R108, R109, R112; 0 in the other modes). -/
def MemMode.crosses (m : MemMode) (s : State) : Bool := crossed (m.base s) (m.ea s)

/-- `bytes_consumed` (R104 to R112). -/
def MemMode.bytesConsumed : MemMode → Nat
  | .zp _ => 1
  | .zpx _ => 1
  | .zpy _ => 1
  | .abs _ => 2
  | .absx _ => 2
  | .absy _ => 2
  | .indx _ => 1
  | .indy _ => 1

/-- `len = 1 + bytes_consumed` (R118). -/
def MemMode.length (m : MemMode) : Nat := 1 + m.bytesConsumed

/-! ## The thirteen modes and the resolver's record -/

/-- Every addressing mode with its operand bytes (R101 to R113). -/
inductive Operand where
  /-- Implied (R101). -/
  | implied
  /-- Accumulator (R102). -/
  | accumulator
  /-- Immediate (R103). -/
  | immediate (b : Byte)
  /-- A mode with a data address (R104 to R109, R111, R112). -/
  | memory (m : MemMode)
  /-- Indirect, `JMP` only (R110). -/
  | indirect (w : Word)
  /-- Relative, the branches only (R113). -/
  | relative (d : Byte)
  deriving DecidableEq, Repr

/-- `bytes_consumed` (R101 to R113). -/
def Operand.bytesConsumed : Operand → Nat
  | .implied => 0
  | .accumulator => 0
  | .immediate _ => 1
  | .memory m => m.bytesConsumed
  | .indirect _ => 2
  | .relative _ => 1

/-- `ResolvedOperand` (R100). -/
structure ResolvedOperand where
  /-- The effective address, where the mode has one. -/
  ea : Option Word
  /-- Operand bytes after the opcode. -/
  bytesConsumed : Nat
  /-- Whether the address is in another page than its base. -/
  pageCrossed : Bool
  deriving DecidableEq, Repr

/-- The address of the instruction after a branch, `next = PC + 2` (R113). -/
def State.branchNext (s : State) : Word := s.pc + 2#16

/-- The branch target `next + sext_16(b1)` (R113). -/
def State.branchTarget (s : State) (d : Byte) : Word := s.branchNext + sext16 d

/-- The effective address of a mode that has one (R100 to R113); `s` is the state at the boundary. -/
def Operand.ea (o : Operand) (s : State) : Option Word :=
  match o with
  | .implied => none
  | .accumulator => none
  | .immediate _ => none
  | .memory m => some (m.ea s)
  | .indirect w => some (s.read16PageWrap w)
  | .relative d => some (s.branchTarget d)

/-- `page_crossed` (R100 to R113). -/
def Operand.pageCrossed (o : Operand) (s : State) : Bool :=
  match o with
  | .implied => false
  | .accumulator => false
  | .immediate _ => false
  | .memory m => m.crosses s
  | .indirect _ => false
  | .relative d => crossed s.branchNext (s.branchTarget d)

/-- The resolver (R100): it reads registers and memory and changes nothing. -/
def resolve (o : Operand) (s : State) : ResolvedOperand :=
  { ea := o.ea s, bytesConsumed := o.bytesConsumed, pageCrossed := o.pageCrossed s }

/-! ## Access classes (R114) -/

/-- The source of a read-class instruction: the literal byte or one read of memory (R114). -/
inductive Source where
  /-- Immediate mode. -/
  | imm (b : Byte)
  /-- A memory mode. -/
  | mem (m : MemMode)
  deriving DecidableEq, Repr

/-- The operand value `m` of a read-class instruction (R114). -/
def Source.value : Source → State → Byte
  | .imm b, _ => b
  | .mem m, s => s.readMem (m.ea s)

/-- The instruction's length (R118). -/
def Source.length : Source → Nat
  | .imm _ => 2
  | .mem m => m.length

/-- The page-cross penalty of a read-class instruction (R115). -/
def Source.penalty : Source → State → Nat
  | .imm _, _ => 0
  | .mem m, s => (m.crosses s).toNat

/-- A read-class instruction (R114): apply `f` to the operand value, then end the instruction (R10, R116). -/
def readClass (f : Byte → State → State) (src : Source) (base : Nat) (s : State) : State :=
  (f (src.value s) s).advance src.length (base + src.penalty s)

/-- A store (R114): one write, no read, never a penalty (R115). -/
def storeClass (v : Byte) (m : MemMode) (base : Nat) (s : State) : State :=
  (s.writeMem (m.ea s) v).advance m.length base

/-- A read-modify-write of memory (R114): one read, one write of the same address, never a penalty (R115). -/
def rmwMemory (f : RmwOp) (m : MemMode) (base : Nat) (s : State) : State :=
  let out := f (s.readMem (m.ea s)) s.p
  State.advance { s.writeMem (m.ea s) out.1 with p := out.2 } m.length base

/-- The accumulator form of a shift or rotate (R102, R114). -/
def rmwAccumulator (f : RmwOp) (base : Nat) (s : State) : State :=
  let out := f s.a s.p
  State.advance { s with a := out.1, p := out.2 } 1 base

/-- The common rule of the eight branches (R174). -/
def branchIf (cond : Bool) (d : Byte) (base : Nat) (s : State) : State :=
  if cond then
    s.jump (s.branchTarget d) (base + 1 + (crossed s.branchNext (s.branchTarget d)).toNat)
  else s.jump s.branchNext base

/-! ## Register results with flags -/

/-- `A <- v; setZN(v)`. -/
def State.loadA (s : State) (v : Byte) : State := { s with a := v, p := setZN v s.p }

/-- `X <- v; setZN(v)`. -/
def State.loadX (s : State) (v : Byte) : State := { s with x := v, p := setZN v s.p }

/-- `Y <- v; setZN(v)`. -/
def State.loadY (s : State) (v : Byte) : State := { s with y := v, p := setZN v s.p }

/-- `A <- r; C <- c'; V <- v'; Z <- z'; N <- n'` (R144, R147). -/
def State.loadAlu (s : State) (u : AluResult) : State := { s with a := u.r, p := putCVZN u s.p }

end Sys2Proof.Machine
end

