-- ==== Sys2Proof/Syntax.lean ====
section
/-! DEFINITION. The instructions: one constructor for each of the 151 defined rows of the opcode table
(30_encoding.md R84, R90), with its operand, and one for the 105 undefined rows (R85). -/

namespace Sys2Proof

/-- An instruction. A Byte operand is the byte after the opcode; a Word operand is the two bytes after it,
low byte first (R80, R81). -/
inductive Instr where
  -- Loads and stores (41_load_store.md)
  /-- `LDA #$nn`, 0xA9 (R120, R103). -/
  | ldaImm (b : Byte)
  /-- `LDA $nn`, 0xA5 (R120, R104). -/
  | ldaZp (z : Byte)
  /-- `LDA $nn,X`, 0xB5 (R120, R105). -/
  | ldaZpx (z : Byte)
  /-- `LDA $nnnn`, 0xAD (R120, R107). -/
  | ldaAbs (w : Word)
  /-- `LDA $nnnn,X`, 0xBD (R120, R108). -/
  | ldaAbsx (w : Word)
  /-- `LDA $nnnn,Y`, 0xB9 (R120, R109). -/
  | ldaAbsy (w : Word)
  /-- `LDA ($nn,X)`, 0xA1 (R120, R111). -/
  | ldaIndx (z : Byte)
  /-- `LDA ($nn),Y`, 0xB1 (R120, R112). -/
  | ldaIndy (z : Byte)
  /-- `LDX #$nn`, 0xA2 (R121, R103). -/
  | ldxImm (b : Byte)
  /-- `LDX $nn`, 0xA6 (R121, R104). -/
  | ldxZp (z : Byte)
  /-- `LDX $nn,Y`, 0xB6 (R121, R106). -/
  | ldxZpy (z : Byte)
  /-- `LDX $nnnn`, 0xAE (R121, R107). -/
  | ldxAbs (w : Word)
  /-- `LDX $nnnn,Y`, 0xBE (R121, R109). -/
  | ldxAbsy (w : Word)
  /-- `LDY #$nn`, 0xA0 (R122, R103). -/
  | ldyImm (b : Byte)
  /-- `LDY $nn`, 0xA4 (R122, R104). -/
  | ldyZp (z : Byte)
  /-- `LDY $nn,X`, 0xB4 (R122, R105). -/
  | ldyZpx (z : Byte)
  /-- `LDY $nnnn`, 0xAC (R122, R107). -/
  | ldyAbs (w : Word)
  /-- `LDY $nnnn,X`, 0xBC (R122, R108). -/
  | ldyAbsx (w : Word)
  /-- `STA $nn`, 0x85 (R123, R104). -/
  | staZp (z : Byte)
  /-- `STA $nn,X`, 0x95 (R123, R105). -/
  | staZpx (z : Byte)
  /-- `STA $nnnn`, 0x8D (R123, R107). -/
  | staAbs (w : Word)
  /-- `STA $nnnn,X`, 0x9D (R123, R108). -/
  | staAbsx (w : Word)
  /-- `STA $nnnn,Y`, 0x99 (R123, R109). -/
  | staAbsy (w : Word)
  /-- `STA ($nn,X)`, 0x81 (R123, R111). -/
  | staIndx (z : Byte)
  /-- `STA ($nn),Y`, 0x91 (R123, R112). -/
  | staIndy (z : Byte)
  /-- `STX $nn`, 0x86 (R124, R104). -/
  | stxZp (z : Byte)
  /-- `STX $nn,Y`, 0x96 (R124, R106). -/
  | stxZpy (z : Byte)
  /-- `STX $nnnn`, 0x8E (R124, R107). -/
  | stxAbs (w : Word)
  /-- `STY $nn`, 0x84 (R125, R104). -/
  | styZp (z : Byte)
  /-- `STY $nn,X`, 0x94 (R125, R105). -/
  | styZpx (z : Byte)
  /-- `STY $nnnn`, 0x8C (R125, R107). -/
  | styAbs (w : Word)
  -- Transfers and stack (42_transfer_stack.md)
  /-- `TAX`, 0xAA (R130, R101). -/
  | tax
  /-- `TAY`, 0xA8 (R131, R101). -/
  | tay
  /-- `TXA`, 0x8A (R132, R101). -/
  | txa
  /-- `TYA`, 0x98 (R133, R101). -/
  | tya
  /-- `TSX`, 0xBA (R134, R101). -/
  | tsx
  /-- `TXS`, 0x9A (R135, R101). -/
  | txs
  /-- `PHA`, 0x48 (R136, R101). -/
  | pha
  /-- `PHP`, 0x08 (R137, R101). -/
  | php
  /-- `PLA`, 0x68 (R138, R101). -/
  | pla
  /-- `PLP`, 0x28 (R139, R101). -/
  | plp
  -- Logic, arithmetic, compare (43_logic_arith.md)
  /-- `AND #$nn`, 0x29 (R140, R103). -/
  | andImm (b : Byte)
  /-- `AND $nn`, 0x25 (R140, R104). -/
  | andZp (z : Byte)
  /-- `AND $nn,X`, 0x35 (R140, R105). -/
  | andZpx (z : Byte)
  /-- `AND $nnnn`, 0x2D (R140, R107). -/
  | andAbs (w : Word)
  /-- `AND $nnnn,X`, 0x3D (R140, R108). -/
  | andAbsx (w : Word)
  /-- `AND $nnnn,Y`, 0x39 (R140, R109). -/
  | andAbsy (w : Word)
  /-- `AND ($nn,X)`, 0x21 (R140, R111). -/
  | andIndx (z : Byte)
  /-- `AND ($nn),Y`, 0x31 (R140, R112). -/
  | andIndy (z : Byte)
  /-- `ORA #$nn`, 0x09 (R141, R103). -/
  | oraImm (b : Byte)
  /-- `ORA $nn`, 0x05 (R141, R104). -/
  | oraZp (z : Byte)
  /-- `ORA $nn,X`, 0x15 (R141, R105). -/
  | oraZpx (z : Byte)
  /-- `ORA $nnnn`, 0x0D (R141, R107). -/
  | oraAbs (w : Word)
  /-- `ORA $nnnn,X`, 0x1D (R141, R108). -/
  | oraAbsx (w : Word)
  /-- `ORA $nnnn,Y`, 0x19 (R141, R109). -/
  | oraAbsy (w : Word)
  /-- `ORA ($nn,X)`, 0x01 (R141, R111). -/
  | oraIndx (z : Byte)
  /-- `ORA ($nn),Y`, 0x11 (R141, R112). -/
  | oraIndy (z : Byte)
  /-- `EOR #$nn`, 0x49 (R142, R103). -/
  | eorImm (b : Byte)
  /-- `EOR $nn`, 0x45 (R142, R104). -/
  | eorZp (z : Byte)
  /-- `EOR $nn,X`, 0x55 (R142, R105). -/
  | eorZpx (z : Byte)
  /-- `EOR $nnnn`, 0x4D (R142, R107). -/
  | eorAbs (w : Word)
  /-- `EOR $nnnn,X`, 0x5D (R142, R108). -/
  | eorAbsx (w : Word)
  /-- `EOR $nnnn,Y`, 0x59 (R142, R109). -/
  | eorAbsy (w : Word)
  /-- `EOR ($nn,X)`, 0x41 (R142, R111). -/
  | eorIndx (z : Byte)
  /-- `EOR ($nn),Y`, 0x51 (R142, R112). -/
  | eorIndy (z : Byte)
  /-- `BIT $nn`, 0x24 (R143, R104). -/
  | bitZp (z : Byte)
  /-- `BIT $nnnn`, 0x2C (R143, R107). -/
  | bitAbs (w : Word)
  /-- `ADC #$nn`, 0x69 (R144, R103). -/
  | adcImm (b : Byte)
  /-- `ADC $nn`, 0x65 (R144, R104). -/
  | adcZp (z : Byte)
  /-- `ADC $nn,X`, 0x75 (R144, R105). -/
  | adcZpx (z : Byte)
  /-- `ADC $nnnn`, 0x6D (R144, R107). -/
  | adcAbs (w : Word)
  /-- `ADC $nnnn,X`, 0x7D (R144, R108). -/
  | adcAbsx (w : Word)
  /-- `ADC $nnnn,Y`, 0x79 (R144, R109). -/
  | adcAbsy (w : Word)
  /-- `ADC ($nn,X)`, 0x61 (R144, R111). -/
  | adcIndx (z : Byte)
  /-- `ADC ($nn),Y`, 0x71 (R144, R112). -/
  | adcIndy (z : Byte)
  /-- `SBC #$nn`, 0xE9 (R147, R103). -/
  | sbcImm (b : Byte)
  /-- `SBC $nn`, 0xE5 (R147, R104). -/
  | sbcZp (z : Byte)
  /-- `SBC $nn,X`, 0xF5 (R147, R105). -/
  | sbcZpx (z : Byte)
  /-- `SBC $nnnn`, 0xED (R147, R107). -/
  | sbcAbs (w : Word)
  /-- `SBC $nnnn,X`, 0xFD (R147, R108). -/
  | sbcAbsx (w : Word)
  /-- `SBC $nnnn,Y`, 0xF9 (R147, R109). -/
  | sbcAbsy (w : Word)
  /-- `SBC ($nn,X)`, 0xE1 (R147, R111). -/
  | sbcIndx (z : Byte)
  /-- `SBC ($nn),Y`, 0xF1 (R147, R112). -/
  | sbcIndy (z : Byte)
  /-- `CMP #$nn`, 0xC9 (R149, R103). -/
  | cmpImm (b : Byte)
  /-- `CMP $nn`, 0xC5 (R149, R104). -/
  | cmpZp (z : Byte)
  /-- `CMP $nn,X`, 0xD5 (R149, R105). -/
  | cmpZpx (z : Byte)
  /-- `CMP $nnnn`, 0xCD (R149, R107). -/
  | cmpAbs (w : Word)
  /-- `CMP $nnnn,X`, 0xDD (R149, R108). -/
  | cmpAbsx (w : Word)
  /-- `CMP $nnnn,Y`, 0xD9 (R149, R109). -/
  | cmpAbsy (w : Word)
  /-- `CMP ($nn,X)`, 0xC1 (R149, R111). -/
  | cmpIndx (z : Byte)
  /-- `CMP ($nn),Y`, 0xD1 (R149, R112). -/
  | cmpIndy (z : Byte)
  /-- `CPX #$nn`, 0xE0 (R150, R103). -/
  | cpxImm (b : Byte)
  /-- `CPX $nn`, 0xE4 (R150, R104). -/
  | cpxZp (z : Byte)
  /-- `CPX $nnnn`, 0xEC (R150, R107). -/
  | cpxAbs (w : Word)
  /-- `CPY #$nn`, 0xC0 (R151, R103). -/
  | cpyImm (b : Byte)
  /-- `CPY $nn`, 0xC4 (R151, R104). -/
  | cpyZp (z : Byte)
  /-- `CPY $nnnn`, 0xCC (R151, R107). -/
  | cpyAbs (w : Word)
  -- Increments, decrements, shifts, rotates (44_incdec_shift.md)
  /-- `INC $nn`, 0xE6 (R160, R104). -/
  | incZp (z : Byte)
  /-- `INC $nn,X`, 0xF6 (R160, R105). -/
  | incZpx (z : Byte)
  /-- `INC $nnnn`, 0xEE (R160, R107). -/
  | incAbs (w : Word)
  /-- `INC $nnnn,X`, 0xFE (R160, R108). -/
  | incAbsx (w : Word)
  /-- `DEC $nn`, 0xC6 (R161, R104). -/
  | decZp (z : Byte)
  /-- `DEC $nn,X`, 0xD6 (R161, R105). -/
  | decZpx (z : Byte)
  /-- `DEC $nnnn`, 0xCE (R161, R107). -/
  | decAbs (w : Word)
  /-- `DEC $nnnn,X`, 0xDE (R161, R108). -/
  | decAbsx (w : Word)
  /-- `INX`, 0xE8 (R162, R101). -/
  | inx
  /-- `INY`, 0xC8 (R163, R101). -/
  | iny
  /-- `DEX`, 0xCA (R164, R101). -/
  | dex
  /-- `DEY`, 0x88 (R165, R101). -/
  | dey
  /-- `ASL A`, 0x0A (R166, R102). -/
  | aslAcc
  /-- `ASL $nn`, 0x06 (R166, R104). -/
  | aslZp (z : Byte)
  /-- `ASL $nn,X`, 0x16 (R166, R105). -/
  | aslZpx (z : Byte)
  /-- `ASL $nnnn`, 0x0E (R166, R107). -/
  | aslAbs (w : Word)
  /-- `ASL $nnnn,X`, 0x1E (R166, R108). -/
  | aslAbsx (w : Word)
  /-- `LSR A`, 0x4A (R167, R102). -/
  | lsrAcc
  /-- `LSR $nn`, 0x46 (R167, R104). -/
  | lsrZp (z : Byte)
  /-- `LSR $nn,X`, 0x56 (R167, R105). -/
  | lsrZpx (z : Byte)
  /-- `LSR $nnnn`, 0x4E (R167, R107). -/
  | lsrAbs (w : Word)
  /-- `LSR $nnnn,X`, 0x5E (R167, R108). -/
  | lsrAbsx (w : Word)
  /-- `ROL A`, 0x2A (R168, R102). -/
  | rolAcc
  /-- `ROL $nn`, 0x26 (R168, R104). -/
  | rolZp (z : Byte)
  /-- `ROL $nn,X`, 0x36 (R168, R105). -/
  | rolZpx (z : Byte)
  /-- `ROL $nnnn`, 0x2E (R168, R107). -/
  | rolAbs (w : Word)
  /-- `ROL $nnnn,X`, 0x3E (R168, R108). -/
  | rolAbsx (w : Word)
  /-- `ROR A`, 0x6A (R169, R102). -/
  | rorAcc
  /-- `ROR $nn`, 0x66 (R169, R104). -/
  | rorZp (z : Byte)
  /-- `ROR $nn,X`, 0x76 (R169, R105). -/
  | rorZpx (z : Byte)
  /-- `ROR $nnnn`, 0x6E (R169, R107). -/
  | rorAbs (w : Word)
  /-- `ROR $nnnn,X`, 0x7E (R169, R108). -/
  | rorAbsx (w : Word)
  -- Jumps, calls, branches (45_control_flow.md)
  /-- `JMP $nnnn`, 0x4C (R170, R107). -/
  | jmpAbs (w : Word)
  /-- `JMP ($nnnn)`, 0x6C (R170, R110). -/
  | jmpInd (w : Word)
  /-- `JSR $nnnn`, 0x20 (R172, R107). -/
  | jsr (w : Word)
  /-- `RTS`, 0x60 (R173, R101). -/
  | rts
  /-- `BCC label`, 0x90 (R175, R113). -/
  | bcc (d : Byte)
  /-- `BCS label`, 0xB0 (R176, R113). -/
  | bcs (d : Byte)
  /-- `BEQ label`, 0xF0 (R177, R113). -/
  | beq (d : Byte)
  /-- `BNE label`, 0xD0 (R178, R113). -/
  | bne (d : Byte)
  /-- `BMI label`, 0x30 (R179, R113). -/
  | bmi (d : Byte)
  /-- `BPL label`, 0x10 (R180, R113). -/
  | bpl (d : Byte)
  /-- `BVC label`, 0x50 (R181, R113). -/
  | bvc (d : Byte)
  /-- `BVS label`, 0x70 (R182, R113). -/
  | bvs (d : Byte)
  -- Flags, NOP, BRK, RTI (46_flags_system.md)
  /-- `CLC`, 0x18 (R190, R101). -/
  | clc
  /-- `SEC`, 0x38 (R191, R101). -/
  | sec
  /-- `CLI`, 0x58 (R192, R101). -/
  | cli
  /-- `SEI`, 0x78 (R193, R101). -/
  | sei
  /-- `CLD`, 0xD8 (R194, R101). -/
  | cld
  /-- `SED`, 0xF8 (R195, R101). -/
  | sed
  /-- `CLV`, 0xB8 (R196, R101). -/
  | clv
  /-- `NOP`, 0xEA (R197, R101). -/
  | nop
  /-- `BRK`, 0x00 (R198, R101). -/
  | brk
  /-- `RTI`, 0x40 (R199, R101). -/
  | rti
  -- Undefined opcodes (46_flags_system.md R200)
  /-- Any of the 105 undefined opcode values, which all follow one rule (R85, R200). DEDUCED, safe; log entry 6. -/
  | undefined (opcode : Byte)
  deriving DecidableEq, Repr

end Sys2Proof
end

