-- ==== Sys2Proof/Machine/ControlFlow.lean ====
section
/-! DEFINITION. The meanings of JMP JSR RTS and the eight branches (45_control_flow.md R170 to R182). -/

namespace Sys2Proof.Machine

/-- `JMP $nnnn`, 3 bytes, 3 cycles (R170). -/
def execJmpAbs (w : Word) (s : State) : Result := .next (s.jump w 3)

/-- `JMP ($nnnn)`, 3 bytes, 5 cycles (R170). -/
def execJmpInd (w : Word) (s : State) : Result := .next (s.jump (s.read16PageWrap w) 5)

/-- `JSR $nnnn`, 3 bytes, 6 cycles (R172): the address of its own last byte is pushed, high byte first. -/
def execJsr (w : Word) (s : State) : Result := .next ((s.pushWord (s.pc + 2#16)).jump w 6)

/-- `RTS`, 1 byte, 6 cycles (R173): low byte, high byte, plus one. -/
def execRts (s : State) : Result := .next (s.pulled.pulled.jump (mkWord s.pulled.pullByte s.pullByte + 1#16) 6)

/-- `BCC label`, 2 bytes, 2 cycles plus the branch penalties (R175). -/
def execBcc (d : Byte) (s : State) : Result := .next (branchIf (!s.p.c) d 2 s)

/-- `BCS label`, 2 bytes, 2 cycles plus the branch penalties (R176). -/
def execBcs (d : Byte) (s : State) : Result := .next (branchIf s.p.c d 2 s)

/-- `BEQ label`, 2 bytes, 2 cycles plus the branch penalties (R177). -/
def execBeq (d : Byte) (s : State) : Result := .next (branchIf s.p.z d 2 s)

/-- `BNE label`, 2 bytes, 2 cycles plus the branch penalties (R178). -/
def execBne (d : Byte) (s : State) : Result := .next (branchIf (!s.p.z) d 2 s)

/-- `BMI label`, 2 bytes, 2 cycles plus the branch penalties (R179). -/
def execBmi (d : Byte) (s : State) : Result := .next (branchIf s.p.n d 2 s)

/-- `BPL label`, 2 bytes, 2 cycles plus the branch penalties (R180). -/
def execBpl (d : Byte) (s : State) : Result := .next (branchIf (!s.p.n) d 2 s)

/-- `BVC label`, 2 bytes, 2 cycles plus the branch penalties (R181). -/
def execBvc (d : Byte) (s : State) : Result := .next (branchIf (!s.p.v) d 2 s)

/-- `BVS label`, 2 bytes, 2 cycles plus the branch penalties (R182). -/
def execBvs (d : Byte) (s : State) : Result := .next (branchIf s.p.v d 2 s)

end Sys2Proof.Machine
end

