-- ==== Sys2Proof/Machine/FlagsSystem.lean ====
section
/-! DEFINITION. The meanings of CLC SEC CLI SEI CLD SED CLV NOP BRK RTI and of the undefined opcodes (46_flags_system.md R190 to R200). -/

namespace Sys2Proof.Machine

/-- `CLC`, 1 byte, 2 cycles (R190). -/
def execClc (s : State) : Result := .next (State.advance { s with p := { s.p with c := false } } 1 2)

/-- `SEC`, 1 byte, 2 cycles (R191). -/
def execSec (s : State) : Result := .next (State.advance { s with p := { s.p with c := true } } 1 2)

/-- `CLI`, 1 byte, 2 cycles (R192). -/
def execCli (s : State) : Result := .next (State.advance { s with p := { s.p with i := false } } 1 2)

/-- `SEI`, 1 byte, 2 cycles (R193). -/
def execSei (s : State) : Result := .next (State.advance { s with p := { s.p with i := true } } 1 2)

/-- `CLD`, 1 byte, 2 cycles (R194). -/
def execCld (s : State) : Result := .next (State.advance { s with p := { s.p with d := false } } 1 2)

/-- `SED`, 1 byte, 2 cycles (R195). -/
def execSed (s : State) : Result := .next (State.advance { s with p := { s.p with d := true } } 1 2)

/-- `CLV`, 1 byte, 2 cycles (R196). -/
def execClv (s : State) : Result := .next (State.advance { s with p := { s.p with v := false } } 1 2)

/-- `NOP`, 1 byte, 2 cycles (R197). -/
def execNop (s : State) : Result := .next (State.advance s 1 2)

/-- `BRK`, 1 byte, 7 cycles (R198): the shared entry with return address PC + 2 and b = 1. -/
def execBrk (s : State) : Result := .next (s.interruptEntry Config.vecIrq (s.pc + 2#16) true 7)

/-- `RTI`, 1 byte, 6 cycles (R199): no plus one, unlike RTS. -/
def execRti (s : State) : Result := .next (s.interruptReturn 6)

/-- An undefined opcode: the fault, and no next state (R200, R210). -/
def execUndefined (opcode : Byte) (s : State) : Result := .fault (.illegalOpcode s.pc opcode)

end Sys2Proof.Machine
end

