-- ==== Sys2Proof/Machine/IncDecShift.lean ====
section
/-! DEFINITION. The meanings of INC DEC INX INY DEX DEY ASL LSR ROL ROR (44_incdec_shift.md R160 to R169). -/

namespace Sys2Proof.Machine

/-- `INC $nn`, 2 bytes, 5 cycles (R160). -/
def execIncZp (z : Byte) (s : State) : Result := .next (rmwMemory incOp (.zp z) 5 s)

/-- `INC $nn,X`, 2 bytes, 6 cycles (R160). -/
def execIncZpx (z : Byte) (s : State) : Result := .next (rmwMemory incOp (.zpx z) 6 s)

/-- `INC $nnnn`, 3 bytes, 6 cycles (R160). -/
def execIncAbs (w : Word) (s : State) : Result := .next (rmwMemory incOp (.abs w) 6 s)

/-- `INC $nnnn,X`, 3 bytes, 7 cycles (R160). -/
def execIncAbsx (w : Word) (s : State) : Result := .next (rmwMemory incOp (.absx w) 7 s)

/-- `DEC $nn`, 2 bytes, 5 cycles (R161). -/
def execDecZp (z : Byte) (s : State) : Result := .next (rmwMemory decOp (.zp z) 5 s)

/-- `DEC $nn,X`, 2 bytes, 6 cycles (R161). -/
def execDecZpx (z : Byte) (s : State) : Result := .next (rmwMemory decOp (.zpx z) 6 s)

/-- `DEC $nnnn`, 3 bytes, 6 cycles (R161). -/
def execDecAbs (w : Word) (s : State) : Result := .next (rmwMemory decOp (.abs w) 6 s)

/-- `DEC $nnnn,X`, 3 bytes, 7 cycles (R161). -/
def execDecAbsx (w : Word) (s : State) : Result := .next (rmwMemory decOp (.absx w) 7 s)

/-- `INX`, 1 byte, 2 cycles (R162). -/
def execInx (s : State) : Result := .next (State.advance (s.loadX (s.x + 1#8)) 1 2)

/-- `INY`, 1 byte, 2 cycles (R163). -/
def execIny (s : State) : Result := .next (State.advance (s.loadY (s.y + 1#8)) 1 2)

/-- `DEX`, 1 byte, 2 cycles (R164). -/
def execDex (s : State) : Result := .next (State.advance (s.loadX (s.x - 1#8)) 1 2)

/-- `DEY`, 1 byte, 2 cycles (R165). -/
def execDey (s : State) : Result := .next (State.advance (s.loadY (s.y - 1#8)) 1 2)

/-- `ASL A`, 1 byte, 2 cycles (R166). -/
def execAslAcc (s : State) : Result := .next (rmwAccumulator aslOp 2 s)

/-- `ASL $nn`, 2 bytes, 5 cycles (R166). -/
def execAslZp (z : Byte) (s : State) : Result := .next (rmwMemory aslOp (.zp z) 5 s)

/-- `ASL $nn,X`, 2 bytes, 6 cycles (R166). -/
def execAslZpx (z : Byte) (s : State) : Result := .next (rmwMemory aslOp (.zpx z) 6 s)

/-- `ASL $nnnn`, 3 bytes, 6 cycles (R166). -/
def execAslAbs (w : Word) (s : State) : Result := .next (rmwMemory aslOp (.abs w) 6 s)

/-- `ASL $nnnn,X`, 3 bytes, 7 cycles (R166). -/
def execAslAbsx (w : Word) (s : State) : Result := .next (rmwMemory aslOp (.absx w) 7 s)

/-- `LSR A`, 1 byte, 2 cycles (R167). -/
def execLsrAcc (s : State) : Result := .next (rmwAccumulator lsrOp 2 s)

/-- `LSR $nn`, 2 bytes, 5 cycles (R167). -/
def execLsrZp (z : Byte) (s : State) : Result := .next (rmwMemory lsrOp (.zp z) 5 s)

/-- `LSR $nn,X`, 2 bytes, 6 cycles (R167). -/
def execLsrZpx (z : Byte) (s : State) : Result := .next (rmwMemory lsrOp (.zpx z) 6 s)

/-- `LSR $nnnn`, 3 bytes, 6 cycles (R167). -/
def execLsrAbs (w : Word) (s : State) : Result := .next (rmwMemory lsrOp (.abs w) 6 s)

/-- `LSR $nnnn,X`, 3 bytes, 7 cycles (R167). -/
def execLsrAbsx (w : Word) (s : State) : Result := .next (rmwMemory lsrOp (.absx w) 7 s)

/-- `ROL A`, 1 byte, 2 cycles (R168). -/
def execRolAcc (s : State) : Result := .next (rmwAccumulator rolOp 2 s)

/-- `ROL $nn`, 2 bytes, 5 cycles (R168). -/
def execRolZp (z : Byte) (s : State) : Result := .next (rmwMemory rolOp (.zp z) 5 s)

/-- `ROL $nn,X`, 2 bytes, 6 cycles (R168). -/
def execRolZpx (z : Byte) (s : State) : Result := .next (rmwMemory rolOp (.zpx z) 6 s)

/-- `ROL $nnnn`, 3 bytes, 6 cycles (R168). -/
def execRolAbs (w : Word) (s : State) : Result := .next (rmwMemory rolOp (.abs w) 6 s)

/-- `ROL $nnnn,X`, 3 bytes, 7 cycles (R168). -/
def execRolAbsx (w : Word) (s : State) : Result := .next (rmwMemory rolOp (.absx w) 7 s)

/-- `ROR A`, 1 byte, 2 cycles (R169). -/
def execRorAcc (s : State) : Result := .next (rmwAccumulator rorOp 2 s)

/-- `ROR $nn`, 2 bytes, 5 cycles (R169). -/
def execRorZp (z : Byte) (s : State) : Result := .next (rmwMemory rorOp (.zp z) 5 s)

/-- `ROR $nn,X`, 2 bytes, 6 cycles (R169). -/
def execRorZpx (z : Byte) (s : State) : Result := .next (rmwMemory rorOp (.zpx z) 6 s)

/-- `ROR $nnnn`, 3 bytes, 6 cycles (R169). -/
def execRorAbs (w : Word) (s : State) : Result := .next (rmwMemory rorOp (.abs w) 6 s)

/-- `ROR $nnnn,X`, 3 bytes, 7 cycles (R169). -/
def execRorAbsx (w : Word) (s : State) : Result := .next (rmwMemory rorOp (.absx w) 7 s)

end Sys2Proof.Machine
end

