-- ==== Sys2Proof/Machine/LoadStore.lean ====
section
/-! DEFINITION. The meanings of LDA LDX LDY STA STX STY (41_load_store.md R120 to R125). -/

namespace Sys2Proof.Machine

/-- `LDA`: `A <- m; setZN(m)` (R120). -/
def ldaFrom : Source → Nat → State → State := readClass fun m s => s.loadA m

/-- `LDX` (R121). -/
def ldxFrom : Source → Nat → State → State := readClass fun m s => s.loadX m

/-- `LDY` (R122). -/
def ldyFrom : Source → Nat → State → State := readClass fun m s => s.loadY m

/-- `LDA #$nn`, 2 bytes, 2 cycles (R120). -/
def execLdaImm (b : Byte) (s : State) : Result := .next (ldaFrom (.imm b) 2 s)

/-- `LDA $nn`, 2 bytes, 3 cycles (R120). -/
def execLdaZp (z : Byte) (s : State) : Result := .next (ldaFrom (.mem (.zp z)) 3 s)

/-- `LDA $nn,X`, 2 bytes, 4 cycles (R120). -/
def execLdaZpx (z : Byte) (s : State) : Result := .next (ldaFrom (.mem (.zpx z)) 4 s)

/-- `LDA $nnnn`, 3 bytes, 4 cycles (R120). -/
def execLdaAbs (w : Word) (s : State) : Result := .next (ldaFrom (.mem (.abs w)) 4 s)

/-- `LDA $nnnn,X`, 3 bytes, 4 cycles plus the page-cross penalty (R120). -/
def execLdaAbsx (w : Word) (s : State) : Result := .next (ldaFrom (.mem (.absx w)) 4 s)

/-- `LDA $nnnn,Y`, 3 bytes, 4 cycles plus the page-cross penalty (R120). -/
def execLdaAbsy (w : Word) (s : State) : Result := .next (ldaFrom (.mem (.absy w)) 4 s)

/-- `LDA ($nn,X)`, 2 bytes, 6 cycles (R120). -/
def execLdaIndx (z : Byte) (s : State) : Result := .next (ldaFrom (.mem (.indx z)) 6 s)

/-- `LDA ($nn),Y`, 2 bytes, 5 cycles plus the page-cross penalty (R120). -/
def execLdaIndy (z : Byte) (s : State) : Result := .next (ldaFrom (.mem (.indy z)) 5 s)

/-- `LDX #$nn`, 2 bytes, 2 cycles (R121). -/
def execLdxImm (b : Byte) (s : State) : Result := .next (ldxFrom (.imm b) 2 s)

/-- `LDX $nn`, 2 bytes, 3 cycles (R121). -/
def execLdxZp (z : Byte) (s : State) : Result := .next (ldxFrom (.mem (.zp z)) 3 s)

/-- `LDX $nn,Y`, 2 bytes, 4 cycles (R121). -/
def execLdxZpy (z : Byte) (s : State) : Result := .next (ldxFrom (.mem (.zpy z)) 4 s)

/-- `LDX $nnnn`, 3 bytes, 4 cycles (R121). -/
def execLdxAbs (w : Word) (s : State) : Result := .next (ldxFrom (.mem (.abs w)) 4 s)

/-- `LDX $nnnn,Y`, 3 bytes, 4 cycles plus the page-cross penalty (R121). -/
def execLdxAbsy (w : Word) (s : State) : Result := .next (ldxFrom (.mem (.absy w)) 4 s)

/-- `LDY #$nn`, 2 bytes, 2 cycles (R122). -/
def execLdyImm (b : Byte) (s : State) : Result := .next (ldyFrom (.imm b) 2 s)

/-- `LDY $nn`, 2 bytes, 3 cycles (R122). -/
def execLdyZp (z : Byte) (s : State) : Result := .next (ldyFrom (.mem (.zp z)) 3 s)

/-- `LDY $nn,X`, 2 bytes, 4 cycles (R122). -/
def execLdyZpx (z : Byte) (s : State) : Result := .next (ldyFrom (.mem (.zpx z)) 4 s)

/-- `LDY $nnnn`, 3 bytes, 4 cycles (R122). -/
def execLdyAbs (w : Word) (s : State) : Result := .next (ldyFrom (.mem (.abs w)) 4 s)

/-- `LDY $nnnn,X`, 3 bytes, 4 cycles plus the page-cross penalty (R122). -/
def execLdyAbsx (w : Word) (s : State) : Result := .next (ldyFrom (.mem (.absx w)) 4 s)

/-- `STA $nn`, 2 bytes, 3 cycles (R123). -/
def execStaZp (z : Byte) (s : State) : Result := .next (storeClass s.a (.zp z) 3 s)

/-- `STA $nn,X`, 2 bytes, 4 cycles (R123). -/
def execStaZpx (z : Byte) (s : State) : Result := .next (storeClass s.a (.zpx z) 4 s)

/-- `STA $nnnn`, 3 bytes, 4 cycles (R123). -/
def execStaAbs (w : Word) (s : State) : Result := .next (storeClass s.a (.abs w) 4 s)

/-- `STA $nnnn,X`, 3 bytes, 5 cycles (R123). -/
def execStaAbsx (w : Word) (s : State) : Result := .next (storeClass s.a (.absx w) 5 s)

/-- `STA $nnnn,Y`, 3 bytes, 5 cycles (R123). -/
def execStaAbsy (w : Word) (s : State) : Result := .next (storeClass s.a (.absy w) 5 s)

/-- `STA ($nn,X)`, 2 bytes, 6 cycles (R123). -/
def execStaIndx (z : Byte) (s : State) : Result := .next (storeClass s.a (.indx z) 6 s)

/-- `STA ($nn),Y`, 2 bytes, 6 cycles (R123). -/
def execStaIndy (z : Byte) (s : State) : Result := .next (storeClass s.a (.indy z) 6 s)

/-- `STX $nn`, 2 bytes, 3 cycles (R124). -/
def execStxZp (z : Byte) (s : State) : Result := .next (storeClass s.x (.zp z) 3 s)

/-- `STX $nn,Y`, 2 bytes, 4 cycles (R124). -/
def execStxZpy (z : Byte) (s : State) : Result := .next (storeClass s.x (.zpy z) 4 s)

/-- `STX $nnnn`, 3 bytes, 4 cycles (R124). -/
def execStxAbs (w : Word) (s : State) : Result := .next (storeClass s.x (.abs w) 4 s)

/-- `STY $nn`, 2 bytes, 3 cycles (R125). -/
def execStyZp (z : Byte) (s : State) : Result := .next (storeClass s.y (.zp z) 3 s)

/-- `STY $nn,X`, 2 bytes, 4 cycles (R125). -/
def execStyZpx (z : Byte) (s : State) : Result := .next (storeClass s.y (.zpx z) 4 s)

/-- `STY $nnnn`, 3 bytes, 4 cycles (R125). -/
def execStyAbs (w : Word) (s : State) : Result := .next (storeClass s.y (.abs w) 4 s)

end Sys2Proof.Machine
end

