-- ==== Sys2Proof/Machine/LogicArith.lean ====
section
/-! DEFINITION. The meanings of AND ORA EOR BIT ADC SBC CMP CPX CPY (43_logic_arith.md R140 to R152). -/

namespace Sys2Proof.Machine

/-- `AND` (R140). -/
def andFrom : Source → Nat → State → State := readClass fun m s => s.loadA (s.a &&& m)

/-- `ORA` (R141). -/
def oraFrom : Source → Nat → State → State := readClass fun m s => s.loadA (s.a ||| m)

/-- `EOR` (R142). -/
def eorFrom : Source → Nat → State → State := readClass fun m s => s.loadA (s.a ^^^ m)

/-- `BIT` (R143): A and memory are unchanged. -/
def bitFrom : Source → Nat → State → State := readClass fun m s => { s with p := bitTestFlags s.a m s.p }

/-- `ADC` (R144). -/
def adcFrom : Source → Nat → State → State := readClass fun m s => s.loadAlu (adcResult s.a m s.p)

/-- `SBC` (R147). -/
def sbcFrom : Source → Nat → State → State := readClass fun m s => s.loadAlu (sbcResult s.a m s.p)

/-- `CMP` (R149). -/
def cmpFrom : Source → Nat → State → State := readClass fun m s => { s with p := compareFlags s.a m s.p }

/-- `CPX` (R150). -/
def cpxFrom : Source → Nat → State → State := readClass fun m s => { s with p := compareFlags s.x m s.p }

/-- `CPY` (R151). -/
def cpyFrom : Source → Nat → State → State := readClass fun m s => { s with p := compareFlags s.y m s.p }

/-- `AND #$nn`, 2 bytes, 2 cycles (R140). -/
def execAndImm (b : Byte) (s : State) : Result := .next (andFrom (.imm b) 2 s)

/-- `AND $nn`, 2 bytes, 3 cycles (R140). -/
def execAndZp (z : Byte) (s : State) : Result := .next (andFrom (.mem (.zp z)) 3 s)

/-- `AND $nn,X`, 2 bytes, 4 cycles (R140). -/
def execAndZpx (z : Byte) (s : State) : Result := .next (andFrom (.mem (.zpx z)) 4 s)

/-- `AND $nnnn`, 3 bytes, 4 cycles (R140). -/
def execAndAbs (w : Word) (s : State) : Result := .next (andFrom (.mem (.abs w)) 4 s)

/-- `AND $nnnn,X`, 3 bytes, 4 cycles plus the page-cross penalty (R140). -/
def execAndAbsx (w : Word) (s : State) : Result := .next (andFrom (.mem (.absx w)) 4 s)

/-- `AND $nnnn,Y`, 3 bytes, 4 cycles plus the page-cross penalty (R140). -/
def execAndAbsy (w : Word) (s : State) : Result := .next (andFrom (.mem (.absy w)) 4 s)

/-- `AND ($nn,X)`, 2 bytes, 6 cycles (R140). -/
def execAndIndx (z : Byte) (s : State) : Result := .next (andFrom (.mem (.indx z)) 6 s)

/-- `AND ($nn),Y`, 2 bytes, 5 cycles plus the page-cross penalty (R140). -/
def execAndIndy (z : Byte) (s : State) : Result := .next (andFrom (.mem (.indy z)) 5 s)

/-- `ORA #$nn`, 2 bytes, 2 cycles (R141). -/
def execOraImm (b : Byte) (s : State) : Result := .next (oraFrom (.imm b) 2 s)

/-- `ORA $nn`, 2 bytes, 3 cycles (R141). -/
def execOraZp (z : Byte) (s : State) : Result := .next (oraFrom (.mem (.zp z)) 3 s)

/-- `ORA $nn,X`, 2 bytes, 4 cycles (R141). -/
def execOraZpx (z : Byte) (s : State) : Result := .next (oraFrom (.mem (.zpx z)) 4 s)

/-- `ORA $nnnn`, 3 bytes, 4 cycles (R141). -/
def execOraAbs (w : Word) (s : State) : Result := .next (oraFrom (.mem (.abs w)) 4 s)

/-- `ORA $nnnn,X`, 3 bytes, 4 cycles plus the page-cross penalty (R141). -/
def execOraAbsx (w : Word) (s : State) : Result := .next (oraFrom (.mem (.absx w)) 4 s)

/-- `ORA $nnnn,Y`, 3 bytes, 4 cycles plus the page-cross penalty (R141). -/
def execOraAbsy (w : Word) (s : State) : Result := .next (oraFrom (.mem (.absy w)) 4 s)

/-- `ORA ($nn,X)`, 2 bytes, 6 cycles (R141). -/
def execOraIndx (z : Byte) (s : State) : Result := .next (oraFrom (.mem (.indx z)) 6 s)

/-- `ORA ($nn),Y`, 2 bytes, 5 cycles plus the page-cross penalty (R141). -/
def execOraIndy (z : Byte) (s : State) : Result := .next (oraFrom (.mem (.indy z)) 5 s)

/-- `EOR #$nn`, 2 bytes, 2 cycles (R142). -/
def execEorImm (b : Byte) (s : State) : Result := .next (eorFrom (.imm b) 2 s)

/-- `EOR $nn`, 2 bytes, 3 cycles (R142). -/
def execEorZp (z : Byte) (s : State) : Result := .next (eorFrom (.mem (.zp z)) 3 s)

/-- `EOR $nn,X`, 2 bytes, 4 cycles (R142). -/
def execEorZpx (z : Byte) (s : State) : Result := .next (eorFrom (.mem (.zpx z)) 4 s)

/-- `EOR $nnnn`, 3 bytes, 4 cycles (R142). -/
def execEorAbs (w : Word) (s : State) : Result := .next (eorFrom (.mem (.abs w)) 4 s)

/-- `EOR $nnnn,X`, 3 bytes, 4 cycles plus the page-cross penalty (R142). -/
def execEorAbsx (w : Word) (s : State) : Result := .next (eorFrom (.mem (.absx w)) 4 s)

/-- `EOR $nnnn,Y`, 3 bytes, 4 cycles plus the page-cross penalty (R142). -/
def execEorAbsy (w : Word) (s : State) : Result := .next (eorFrom (.mem (.absy w)) 4 s)

/-- `EOR ($nn,X)`, 2 bytes, 6 cycles (R142). -/
def execEorIndx (z : Byte) (s : State) : Result := .next (eorFrom (.mem (.indx z)) 6 s)

/-- `EOR ($nn),Y`, 2 bytes, 5 cycles plus the page-cross penalty (R142). -/
def execEorIndy (z : Byte) (s : State) : Result := .next (eorFrom (.mem (.indy z)) 5 s)

/-- `BIT $nn`, 2 bytes, 3 cycles (R143). -/
def execBitZp (z : Byte) (s : State) : Result := .next (bitFrom (.mem (.zp z)) 3 s)

/-- `BIT $nnnn`, 3 bytes, 4 cycles (R143). -/
def execBitAbs (w : Word) (s : State) : Result := .next (bitFrom (.mem (.abs w)) 4 s)

/-- `ADC #$nn`, 2 bytes, 2 cycles (R144). -/
def execAdcImm (b : Byte) (s : State) : Result := .next (adcFrom (.imm b) 2 s)

/-- `ADC $nn`, 2 bytes, 3 cycles (R144). -/
def execAdcZp (z : Byte) (s : State) : Result := .next (adcFrom (.mem (.zp z)) 3 s)

/-- `ADC $nn,X`, 2 bytes, 4 cycles (R144). -/
def execAdcZpx (z : Byte) (s : State) : Result := .next (adcFrom (.mem (.zpx z)) 4 s)

/-- `ADC $nnnn`, 3 bytes, 4 cycles (R144). -/
def execAdcAbs (w : Word) (s : State) : Result := .next (adcFrom (.mem (.abs w)) 4 s)

/-- `ADC $nnnn,X`, 3 bytes, 4 cycles plus the page-cross penalty (R144). -/
def execAdcAbsx (w : Word) (s : State) : Result := .next (adcFrom (.mem (.absx w)) 4 s)

/-- `ADC $nnnn,Y`, 3 bytes, 4 cycles plus the page-cross penalty (R144). -/
def execAdcAbsy (w : Word) (s : State) : Result := .next (adcFrom (.mem (.absy w)) 4 s)

/-- `ADC ($nn,X)`, 2 bytes, 6 cycles (R144). -/
def execAdcIndx (z : Byte) (s : State) : Result := .next (adcFrom (.mem (.indx z)) 6 s)

/-- `ADC ($nn),Y`, 2 bytes, 5 cycles plus the page-cross penalty (R144). -/
def execAdcIndy (z : Byte) (s : State) : Result := .next (adcFrom (.mem (.indy z)) 5 s)

/-- `SBC #$nn`, 2 bytes, 2 cycles (R147). -/
def execSbcImm (b : Byte) (s : State) : Result := .next (sbcFrom (.imm b) 2 s)

/-- `SBC $nn`, 2 bytes, 3 cycles (R147). -/
def execSbcZp (z : Byte) (s : State) : Result := .next (sbcFrom (.mem (.zp z)) 3 s)

/-- `SBC $nn,X`, 2 bytes, 4 cycles (R147). -/
def execSbcZpx (z : Byte) (s : State) : Result := .next (sbcFrom (.mem (.zpx z)) 4 s)

/-- `SBC $nnnn`, 3 bytes, 4 cycles (R147). -/
def execSbcAbs (w : Word) (s : State) : Result := .next (sbcFrom (.mem (.abs w)) 4 s)

/-- `SBC $nnnn,X`, 3 bytes, 4 cycles plus the page-cross penalty (R147). -/
def execSbcAbsx (w : Word) (s : State) : Result := .next (sbcFrom (.mem (.absx w)) 4 s)

/-- `SBC $nnnn,Y`, 3 bytes, 4 cycles plus the page-cross penalty (R147). -/
def execSbcAbsy (w : Word) (s : State) : Result := .next (sbcFrom (.mem (.absy w)) 4 s)

/-- `SBC ($nn,X)`, 2 bytes, 6 cycles (R147). -/
def execSbcIndx (z : Byte) (s : State) : Result := .next (sbcFrom (.mem (.indx z)) 6 s)

/-- `SBC ($nn),Y`, 2 bytes, 5 cycles plus the page-cross penalty (R147). -/
def execSbcIndy (z : Byte) (s : State) : Result := .next (sbcFrom (.mem (.indy z)) 5 s)

/-- `CMP #$nn`, 2 bytes, 2 cycles (R149). -/
def execCmpImm (b : Byte) (s : State) : Result := .next (cmpFrom (.imm b) 2 s)

/-- `CMP $nn`, 2 bytes, 3 cycles (R149). -/
def execCmpZp (z : Byte) (s : State) : Result := .next (cmpFrom (.mem (.zp z)) 3 s)

/-- `CMP $nn,X`, 2 bytes, 4 cycles (R149). -/
def execCmpZpx (z : Byte) (s : State) : Result := .next (cmpFrom (.mem (.zpx z)) 4 s)

/-- `CMP $nnnn`, 3 bytes, 4 cycles (R149). -/
def execCmpAbs (w : Word) (s : State) : Result := .next (cmpFrom (.mem (.abs w)) 4 s)

/-- `CMP $nnnn,X`, 3 bytes, 4 cycles plus the page-cross penalty (R149). -/
def execCmpAbsx (w : Word) (s : State) : Result := .next (cmpFrom (.mem (.absx w)) 4 s)

/-- `CMP $nnnn,Y`, 3 bytes, 4 cycles plus the page-cross penalty (R149). -/
def execCmpAbsy (w : Word) (s : State) : Result := .next (cmpFrom (.mem (.absy w)) 4 s)

/-- `CMP ($nn,X)`, 2 bytes, 6 cycles (R149). -/
def execCmpIndx (z : Byte) (s : State) : Result := .next (cmpFrom (.mem (.indx z)) 6 s)

/-- `CMP ($nn),Y`, 2 bytes, 5 cycles plus the page-cross penalty (R149). -/
def execCmpIndy (z : Byte) (s : State) : Result := .next (cmpFrom (.mem (.indy z)) 5 s)

/-- `CPX #$nn`, 2 bytes, 2 cycles (R150). -/
def execCpxImm (b : Byte) (s : State) : Result := .next (cpxFrom (.imm b) 2 s)

/-- `CPX $nn`, 2 bytes, 3 cycles (R150). -/
def execCpxZp (z : Byte) (s : State) : Result := .next (cpxFrom (.mem (.zp z)) 3 s)

/-- `CPX $nnnn`, 3 bytes, 4 cycles (R150). -/
def execCpxAbs (w : Word) (s : State) : Result := .next (cpxFrom (.mem (.abs w)) 4 s)

/-- `CPY #$nn`, 2 bytes, 2 cycles (R151). -/
def execCpyImm (b : Byte) (s : State) : Result := .next (cpyFrom (.imm b) 2 s)

/-- `CPY $nn`, 2 bytes, 3 cycles (R151). -/
def execCpyZp (z : Byte) (s : State) : Result := .next (cpyFrom (.mem (.zp z)) 3 s)

/-- `CPY $nnnn`, 3 bytes, 4 cycles (R151). -/
def execCpyAbs (w : Word) (s : State) : Result := .next (cpyFrom (.mem (.abs w)) 4 s)

end Sys2Proof.Machine
end

