-- ==== Sys2Proof/Machine/TransferStack.lean ====
section
/-! DEFINITION. The meanings of TAX TAY TXA TYA TSX TXS PHA PHP PLA PLP (42_transfer_stack.md R130 to R139). -/

namespace Sys2Proof.Machine

/-- `TAX`, 1 byte, 2 cycles (R130). -/
def execTax (s : State) : Result := .next (State.advance (s.loadX s.a) 1 2)

/-- `TAY`, 1 byte, 2 cycles (R131). -/
def execTay (s : State) : Result := .next (State.advance (s.loadY s.a) 1 2)

/-- `TXA`, 1 byte, 2 cycles (R132). -/
def execTxa (s : State) : Result := .next (State.advance (s.loadA s.x) 1 2)

/-- `TYA`, 1 byte, 2 cycles (R133). -/
def execTya (s : State) : Result := .next (State.advance (s.loadA s.y) 1 2)

/-- `TSX`, 1 byte, 2 cycles (R134): the Byte SP, no memory read; C8. -/
def execTsx (s : State) : Result := .next (State.advance (s.loadX s.sp) 1 2)

/-- `TXS`, 1 byte, 2 cycles (R135): no flag. -/
def execTxs (s : State) : Result := .next (State.advance { s with sp := s.x } 1 2)

/-- `PHA`, 1 byte, 3 cycles (R136). -/
def execPha (s : State) : Result := .next (State.advance (s.push s.a) 1 3)

/-- `PHP`, 1 byte, 3 cycles (R137): pushed with bits 5 and 4 set. -/
def execPhp (s : State) : Result := .next (State.advance (s.push (pImage true s.p)) 1 3)

/-- `PLA`, 1 byte, 4 cycles (R138). -/
def execPla (s : State) : Result := .next (State.advance (s.pulled.loadA s.pullByte) 1 4)

/-- `PLP`, 1 byte, 4 cycles (R139): bits 5 and 4 ignored. -/
def execPlp (s : State) : Result := .next (State.advance { s.pulled with p := pLoad s.pullByte s.p } 1 4)

end Sys2Proof.Machine
end

