-- ==== Sys2Proof/Decode.lean ====
section
/-! DEFINITION. The instruction table of 30_encoding.md R83 and R84, the decoder that looks an opcode byte up
in it, and the encoder. The map is PRESUMED by the spec (93_implementation_defined.md G1, G2), unsafe; log
entry 10. -/

namespace Sys2Proof

open Sys2Proof.Machine

/-- The conditional extra cycles of an opcode (R84: `+`, `*` or no sign). -/
inductive Penalty where
  /-- No sign in the map. -/
  | none
  /-- `+`: one more if the effective address crosses a page (R115). -/
  | pageCross
  /-- `*`: the branch penalties (R174). -/
  | branch
  deriving DecidableEq, Repr

/-- A cell of the map: how many operand bytes follow the opcode, what instruction they give, the base
cycles and the penalty (R80, R83, R84). -/
inductive Entry where
  /-- `-`: explicitly marked undefined. -/
  | undefined
  /-- Length 1. -/
  | implied (i : Instr) (cycles : Nat)
  /-- Length 2: one operand byte. -/
  | byte (k : Byte → Instr) (cycles : Nat) (penalty : Penalty)
  /-- Length 3: an operand Word, low byte first (R81). -/
  | word (k : Word → Instr) (cycles : Nat) (penalty : Penalty)

/-- Row 0x of the map (R84). -/
def mapRow0 : List Entry :=
  [.implied .brk 7, .byte .oraIndx 6 .none, .undefined, .undefined,
   .undefined, .byte .oraZp 3 .none, .byte .aslZp 5 .none, .undefined,
   .implied .php 3, .byte .oraImm 2 .none, .implied .aslAcc 2, .undefined,
   .undefined, .word .oraAbs 4 .none, .word .aslAbs 6 .none, .undefined]

/-- Row 1x of the map (R84). -/
def mapRow1 : List Entry :=
  [.byte .bpl 2 .branch, .byte .oraIndy 5 .pageCross, .undefined, .undefined,
   .undefined, .byte .oraZpx 4 .none, .byte .aslZpx 6 .none, .undefined,
   .implied .clc 2, .word .oraAbsy 4 .pageCross, .undefined, .undefined,
   .undefined, .word .oraAbsx 4 .pageCross, .word .aslAbsx 7 .none, .undefined]

/-- Row 2x of the map (R84). -/
def mapRow2 : List Entry :=
  [.word .jsr 6 .none, .byte .andIndx 6 .none, .undefined, .undefined,
   .byte .bitZp 3 .none, .byte .andZp 3 .none, .byte .rolZp 5 .none, .undefined,
   .implied .plp 4, .byte .andImm 2 .none, .implied .rolAcc 2, .undefined,
   .word .bitAbs 4 .none, .word .andAbs 4 .none, .word .rolAbs 6 .none, .undefined]

/-- Row 3x of the map (R84). -/
def mapRow3 : List Entry :=
  [.byte .bmi 2 .branch, .byte .andIndy 5 .pageCross, .undefined, .undefined,
   .undefined, .byte .andZpx 4 .none, .byte .rolZpx 6 .none, .undefined,
   .implied .sec 2, .word .andAbsy 4 .pageCross, .undefined, .undefined,
   .undefined, .word .andAbsx 4 .pageCross, .word .rolAbsx 7 .none, .undefined]

/-- Row 4x of the map (R84). -/
def mapRow4 : List Entry :=
  [.implied .rti 6, .byte .eorIndx 6 .none, .undefined, .undefined,
   .undefined, .byte .eorZp 3 .none, .byte .lsrZp 5 .none, .undefined,
   .implied .pha 3, .byte .eorImm 2 .none, .implied .lsrAcc 2, .undefined,
   .word .jmpAbs 3 .none, .word .eorAbs 4 .none, .word .lsrAbs 6 .none, .undefined]

/-- Row 5x of the map (R84). -/
def mapRow5 : List Entry :=
  [.byte .bvc 2 .branch, .byte .eorIndy 5 .pageCross, .undefined, .undefined,
   .undefined, .byte .eorZpx 4 .none, .byte .lsrZpx 6 .none, .undefined,
   .implied .cli 2, .word .eorAbsy 4 .pageCross, .undefined, .undefined,
   .undefined, .word .eorAbsx 4 .pageCross, .word .lsrAbsx 7 .none, .undefined]

/-- Row 6x of the map (R84). -/
def mapRow6 : List Entry :=
  [.implied .rts 6, .byte .adcIndx 6 .none, .undefined, .undefined,
   .undefined, .byte .adcZp 3 .none, .byte .rorZp 5 .none, .undefined,
   .implied .pla 4, .byte .adcImm 2 .none, .implied .rorAcc 2, .undefined,
   .word .jmpInd 5 .none, .word .adcAbs 4 .none, .word .rorAbs 6 .none, .undefined]

/-- Row 7x of the map (R84). -/
def mapRow7 : List Entry :=
  [.byte .bvs 2 .branch, .byte .adcIndy 5 .pageCross, .undefined, .undefined,
   .undefined, .byte .adcZpx 4 .none, .byte .rorZpx 6 .none, .undefined,
   .implied .sei 2, .word .adcAbsy 4 .pageCross, .undefined, .undefined,
   .undefined, .word .adcAbsx 4 .pageCross, .word .rorAbsx 7 .none, .undefined]

/-- Row 8x of the map (R84). -/
def mapRow8 : List Entry :=
  [.undefined, .byte .staIndx 6 .none, .undefined, .undefined,
   .byte .styZp 3 .none, .byte .staZp 3 .none, .byte .stxZp 3 .none, .undefined,
   .implied .dey 2, .undefined, .implied .txa 2, .undefined,
   .word .styAbs 4 .none, .word .staAbs 4 .none, .word .stxAbs 4 .none, .undefined]

/-- Row 9x of the map (R84). -/
def mapRow9 : List Entry :=
  [.byte .bcc 2 .branch, .byte .staIndy 6 .none, .undefined, .undefined,
   .byte .styZpx 4 .none, .byte .staZpx 4 .none, .byte .stxZpy 4 .none, .undefined,
   .implied .tya 2, .word .staAbsy 5 .none, .implied .txs 2, .undefined,
   .undefined, .word .staAbsx 5 .none, .undefined, .undefined]

/-- Row Ax of the map (R84). -/
def mapRowA : List Entry :=
  [.byte .ldyImm 2 .none, .byte .ldaIndx 6 .none, .byte .ldxImm 2 .none, .undefined,
   .byte .ldyZp 3 .none, .byte .ldaZp 3 .none, .byte .ldxZp 3 .none, .undefined,
   .implied .tay 2, .byte .ldaImm 2 .none, .implied .tax 2, .undefined,
   .word .ldyAbs 4 .none, .word .ldaAbs 4 .none, .word .ldxAbs 4 .none, .undefined]

/-- Row Bx of the map (R84). -/
def mapRowB : List Entry :=
  [.byte .bcs 2 .branch, .byte .ldaIndy 5 .pageCross, .undefined, .undefined,
   .byte .ldyZpx 4 .none, .byte .ldaZpx 4 .none, .byte .ldxZpy 4 .none, .undefined,
   .implied .clv 2, .word .ldaAbsy 4 .pageCross, .implied .tsx 2, .undefined,
   .word .ldyAbsx 4 .pageCross, .word .ldaAbsx 4 .pageCross, .word .ldxAbsy 4 .pageCross, .undefined]

/-- Row Cx of the map (R84). -/
def mapRowC : List Entry :=
  [.byte .cpyImm 2 .none, .byte .cmpIndx 6 .none, .undefined, .undefined,
   .byte .cpyZp 3 .none, .byte .cmpZp 3 .none, .byte .decZp 5 .none, .undefined,
   .implied .iny 2, .byte .cmpImm 2 .none, .implied .dex 2, .undefined,
   .word .cpyAbs 4 .none, .word .cmpAbs 4 .none, .word .decAbs 6 .none, .undefined]

/-- Row Dx of the map (R84). -/
def mapRowD : List Entry :=
  [.byte .bne 2 .branch, .byte .cmpIndy 5 .pageCross, .undefined, .undefined,
   .undefined, .byte .cmpZpx 4 .none, .byte .decZpx 6 .none, .undefined,
   .implied .cld 2, .word .cmpAbsy 4 .pageCross, .undefined, .undefined,
   .undefined, .word .cmpAbsx 4 .pageCross, .word .decAbsx 7 .none, .undefined]

/-- Row Ex of the map (R84). -/
def mapRowE : List Entry :=
  [.byte .cpxImm 2 .none, .byte .sbcIndx 6 .none, .undefined, .undefined,
   .byte .cpxZp 3 .none, .byte .sbcZp 3 .none, .byte .incZp 5 .none, .undefined,
   .implied .inx 2, .byte .sbcImm 2 .none, .implied .nop 2, .undefined,
   .word .cpxAbs 4 .none, .word .sbcAbs 4 .none, .word .incAbs 6 .none, .undefined]

/-- Row Fx of the map (R84). -/
def mapRowF : List Entry :=
  [.byte .beq 2 .branch, .byte .sbcIndy 5 .pageCross, .undefined, .undefined,
   .undefined, .byte .sbcZpx 4 .none, .byte .incZpx 6 .none, .undefined,
   .implied .sed 2, .word .sbcAbsy 4 .pageCross, .undefined, .undefined,
   .undefined, .word .sbcAbsx 4 .pageCross, .word .incAbsx 7 .none, .undefined]

/-- The opcode map of R84: row by high nibble, column by low nibble. -/
def opcodeMap : List (List Entry) :=
  [mapRow0, mapRow1, mapRow2, mapRow3, mapRow4, mapRow5, mapRow6, mapRow7,
   mapRow8, mapRow9, mapRowA, mapRowB, mapRowC, mapRowD, mapRowE, mapRowF]

/-- The table entry of an opcode byte (R83): total over the 256 values. -/
def opcodeEntry (op : Byte) : Entry :=
  (opcodeMap.getD (op.toNat / 16) []).getD (op.toNat % 16) .undefined

/-- How many operand bytes follow the opcode: known from the opcode byte alone (R80, R83). An undefined
opcode reads no operand byte (R85, R200). -/
def Entry.operandBytes : Entry → Nat
  | .undefined => 0
  | .implied _ _ => 0
  | .byte _ _ _ => 1
  | .word _ _ _ => 2

/-- The base cycle count of an entry (R84, R252); an undefined opcode has none and counts 0 (R254). -/
def Entry.baseCycles : Entry → Nat
  | .undefined => 0
  | .implied _ c => c
  | .byte _ c _ => c
  | .word _ c _ => c

/-- The penalty of an entry (R84). -/
def Entry.penalty : Entry → Penalty
  | .undefined => .none
  | .implied _ _ => .none
  | .byte _ _ p => p
  | .word _ _ p => p

/-- The instruction of an opcode and the two bytes that follow it in memory; bytes the mode does not
consume play no part (R57, R80). -/
def Entry.instr (op b1 b2 : Byte) : Entry → Instr
  | .undefined => .undefined op
  | .implied i _ => i
  | .byte k _ _ => k b1
  | .word k _ _ => k (mkWord b2 b1)

/-- Why a list of bytes gives no instruction; a fetch from memory never meets either case (R50, R57).
DEDUCED, safe; log entry 11. -/
inductive DecodeError where
  /-- The list is empty. -/
  | noOpcode
  /-- The list ends before the operand bytes of `opcode`. -/
  | missingOperand (opcode : Byte)
  deriving DecidableEq, Repr

/-- The decoder: the instruction at the front of a list of bytes, and the rest (R80 to R83). -/
def decode : List Byte → Except DecodeError (Instr × List Byte)
  | [] => .error .noOpcode
  | op :: rest =>
    match opcodeEntry op with
    | .undefined => .ok (.undefined op, rest)
    | .implied i _ => .ok (i, rest)
    | .byte k _ _ =>
      match rest with
      | b1 :: rest => .ok (k b1, rest)
      | _ => .error (.missingOperand op)
    | .word k _ _ =>
      match rest with
      | b1 :: b2 :: rest => .ok (k (mkWord b2 b1), rest)
      | _ => .error (.missingOperand op)

/-! ## The encoder: the encodings line of each instruction's rule -/

/-- A two-byte instruction (R80, format F2). -/
def enc2 (op b : Byte) : List Byte := [op, b]

/-- A three-byte instruction, low byte first (R80, R81, format F3). -/
def enc3 (op : Byte) (w : Word) : List Byte := [op, loByte w, hiByte w]

/-- The bytes of an instruction in memory order. -/
def encode : Instr → List Byte
  -- Loads and stores (41_load_store.md)
  | .ldaImm b => enc2 0xA9#8 b
  | .ldaZp z => enc2 0xA5#8 z
  | .ldaZpx z => enc2 0xB5#8 z
  | .ldaAbs w => enc3 0xAD#8 w
  | .ldaAbsx w => enc3 0xBD#8 w
  | .ldaAbsy w => enc3 0xB9#8 w
  | .ldaIndx z => enc2 0xA1#8 z
  | .ldaIndy z => enc2 0xB1#8 z
  | .ldxImm b => enc2 0xA2#8 b
  | .ldxZp z => enc2 0xA6#8 z
  | .ldxZpy z => enc2 0xB6#8 z
  | .ldxAbs w => enc3 0xAE#8 w
  | .ldxAbsy w => enc3 0xBE#8 w
  | .ldyImm b => enc2 0xA0#8 b
  | .ldyZp z => enc2 0xA4#8 z
  | .ldyZpx z => enc2 0xB4#8 z
  | .ldyAbs w => enc3 0xAC#8 w
  | .ldyAbsx w => enc3 0xBC#8 w
  | .staZp z => enc2 0x85#8 z
  | .staZpx z => enc2 0x95#8 z
  | .staAbs w => enc3 0x8D#8 w
  | .staAbsx w => enc3 0x9D#8 w
  | .staAbsy w => enc3 0x99#8 w
  | .staIndx z => enc2 0x81#8 z
  | .staIndy z => enc2 0x91#8 z
  | .stxZp z => enc2 0x86#8 z
  | .stxZpy z => enc2 0x96#8 z
  | .stxAbs w => enc3 0x8E#8 w
  | .styZp z => enc2 0x84#8 z
  | .styZpx z => enc2 0x94#8 z
  | .styAbs w => enc3 0x8C#8 w
  -- Transfers and stack (42_transfer_stack.md)
  | .tax => [0xAA#8]
  | .tay => [0xA8#8]
  | .txa => [0x8A#8]
  | .tya => [0x98#8]
  | .tsx => [0xBA#8]
  | .txs => [0x9A#8]
  | .pha => [0x48#8]
  | .php => [0x08#8]
  | .pla => [0x68#8]
  | .plp => [0x28#8]
  -- Logic, arithmetic, compare (43_logic_arith.md)
  | .andImm b => enc2 0x29#8 b
  | .andZp z => enc2 0x25#8 z
  | .andZpx z => enc2 0x35#8 z
  | .andAbs w => enc3 0x2D#8 w
  | .andAbsx w => enc3 0x3D#8 w
  | .andAbsy w => enc3 0x39#8 w
  | .andIndx z => enc2 0x21#8 z
  | .andIndy z => enc2 0x31#8 z
  | .oraImm b => enc2 0x09#8 b
  | .oraZp z => enc2 0x05#8 z
  | .oraZpx z => enc2 0x15#8 z
  | .oraAbs w => enc3 0x0D#8 w
  | .oraAbsx w => enc3 0x1D#8 w
  | .oraAbsy w => enc3 0x19#8 w
  | .oraIndx z => enc2 0x01#8 z
  | .oraIndy z => enc2 0x11#8 z
  | .eorImm b => enc2 0x49#8 b
  | .eorZp z => enc2 0x45#8 z
  | .eorZpx z => enc2 0x55#8 z
  | .eorAbs w => enc3 0x4D#8 w
  | .eorAbsx w => enc3 0x5D#8 w
  | .eorAbsy w => enc3 0x59#8 w
  | .eorIndx z => enc2 0x41#8 z
  | .eorIndy z => enc2 0x51#8 z
  | .bitZp z => enc2 0x24#8 z
  | .bitAbs w => enc3 0x2C#8 w
  | .adcImm b => enc2 0x69#8 b
  | .adcZp z => enc2 0x65#8 z
  | .adcZpx z => enc2 0x75#8 z
  | .adcAbs w => enc3 0x6D#8 w
  | .adcAbsx w => enc3 0x7D#8 w
  | .adcAbsy w => enc3 0x79#8 w
  | .adcIndx z => enc2 0x61#8 z
  | .adcIndy z => enc2 0x71#8 z
  | .sbcImm b => enc2 0xE9#8 b
  | .sbcZp z => enc2 0xE5#8 z
  | .sbcZpx z => enc2 0xF5#8 z
  | .sbcAbs w => enc3 0xED#8 w
  | .sbcAbsx w => enc3 0xFD#8 w
  | .sbcAbsy w => enc3 0xF9#8 w
  | .sbcIndx z => enc2 0xE1#8 z
  | .sbcIndy z => enc2 0xF1#8 z
  | .cmpImm b => enc2 0xC9#8 b
  | .cmpZp z => enc2 0xC5#8 z
  | .cmpZpx z => enc2 0xD5#8 z
  | .cmpAbs w => enc3 0xCD#8 w
  | .cmpAbsx w => enc3 0xDD#8 w
  | .cmpAbsy w => enc3 0xD9#8 w
  | .cmpIndx z => enc2 0xC1#8 z
  | .cmpIndy z => enc2 0xD1#8 z
  | .cpxImm b => enc2 0xE0#8 b
  | .cpxZp z => enc2 0xE4#8 z
  | .cpxAbs w => enc3 0xEC#8 w
  | .cpyImm b => enc2 0xC0#8 b
  | .cpyZp z => enc2 0xC4#8 z
  | .cpyAbs w => enc3 0xCC#8 w
  -- Increments, decrements, shifts, rotates (44_incdec_shift.md)
  | .incZp z => enc2 0xE6#8 z
  | .incZpx z => enc2 0xF6#8 z
  | .incAbs w => enc3 0xEE#8 w
  | .incAbsx w => enc3 0xFE#8 w
  | .decZp z => enc2 0xC6#8 z
  | .decZpx z => enc2 0xD6#8 z
  | .decAbs w => enc3 0xCE#8 w
  | .decAbsx w => enc3 0xDE#8 w
  | .inx => [0xE8#8]
  | .iny => [0xC8#8]
  | .dex => [0xCA#8]
  | .dey => [0x88#8]
  | .aslAcc => [0x0A#8]
  | .aslZp z => enc2 0x06#8 z
  | .aslZpx z => enc2 0x16#8 z
  | .aslAbs w => enc3 0x0E#8 w
  | .aslAbsx w => enc3 0x1E#8 w
  | .lsrAcc => [0x4A#8]
  | .lsrZp z => enc2 0x46#8 z
  | .lsrZpx z => enc2 0x56#8 z
  | .lsrAbs w => enc3 0x4E#8 w
  | .lsrAbsx w => enc3 0x5E#8 w
  | .rolAcc => [0x2A#8]
  | .rolZp z => enc2 0x26#8 z
  | .rolZpx z => enc2 0x36#8 z
  | .rolAbs w => enc3 0x2E#8 w
  | .rolAbsx w => enc3 0x3E#8 w
  | .rorAcc => [0x6A#8]
  | .rorZp z => enc2 0x66#8 z
  | .rorZpx z => enc2 0x76#8 z
  | .rorAbs w => enc3 0x6E#8 w
  | .rorAbsx w => enc3 0x7E#8 w
  -- Jumps, calls, branches (45_control_flow.md)
  | .jmpAbs w => enc3 0x4C#8 w
  | .jmpInd w => enc3 0x6C#8 w
  | .jsr w => enc3 0x20#8 w
  | .rts => [0x60#8]
  | .bcc d => enc2 0x90#8 d
  | .bcs d => enc2 0xB0#8 d
  | .beq d => enc2 0xF0#8 d
  | .bne d => enc2 0xD0#8 d
  | .bmi d => enc2 0x30#8 d
  | .bpl d => enc2 0x10#8 d
  | .bvc d => enc2 0x50#8 d
  | .bvs d => enc2 0x70#8 d
  -- Flags, NOP, BRK, RTI (46_flags_system.md)
  | .clc => [0x18#8]
  | .sec => [0x38#8]
  | .cli => [0x58#8]
  | .sei => [0x78#8]
  | .cld => [0xD8#8]
  | .sed => [0xF8#8]
  | .clv => [0xB8#8]
  | .nop => [0xEA#8]
  | .brk => [0x00#8]
  | .rti => [0x40#8]
  -- Undefined opcodes
  | .undefined opcode => [opcode]

/-! ## Bits as the opcode table numbers them -/

/-- The longest instruction has three bytes (R80); bit 0 of `w` is bit 0 of the first byte. Bits from
`nbits` up are 0. -/
def tableBytes (nbits w : Nat) : List Byte :=
  let w := w % 2 ^ nbits
  [BitVec.ofNat 8 w, BitVec.ofNat 8 (w / 256), BitVec.ofNat 8 (w / 65536)]

/-- The instruction the decoder reads from a table word. -/
def decodeTableWord (nbits w : Nat) : Option Instr :=
  match decode (tableBytes nbits w) with
  | .ok (i, _) => some i
  | .error _ => none

end Sys2Proof
end

