-- ==== Sys2Proof/Machine/Fetch.lean ====
section
/-! DEFINITION. Fetching an instruction (20_memory.md R57, 30_encoding.md R80 to R83) and placing one where the
next fetch reads. -/

namespace Sys2Proof.Machine

/-- The opcode byte at PC (R83). -/
def State.opcode (s : State) : Byte := s.readMem s.pc

/-- The byte `k` places after PC, modulo 65536 (R57). -/
def State.byteAt (s : State) (k : Nat) : Byte := s.readMem (s.pc + BitVec.ofNat 16 k)

/-- The instruction at PC: the opcode byte selects the entry, and only the operand bytes that the entry
consumes play a part (R57, R62, R83). -/
def State.fetch (s : State) : Instr := (opcodeEntry s.opcode).instr s.opcode (s.byteAt 1) (s.byteAt 2)

/-- Writes a list of bytes from an address upwards, modulo 65536, as the host does between steps (R234). -/
def State.writeBytes (s : State) (a : Word) : List Byte → State
  | [] => s
  | v :: rest => State.writeBytes (s.writeMem a v) (a + 1#16) rest

/-- The state with the bytes at PC and no interrupt due, so that the next step fetches them (R215). -/
def State.placeAtPc (s : State) (bytes : List Byte) : State :=
  { s.writeBytes s.pc bytes with nmiPending := false, irqLine := s.irqLine && s.p.i }

end Sys2Proof.Machine
end

