-- ==== Sys2Proof/Machine/Step.lean ====
section
/-! DEFINITION. One step of the core (60_exceptions.md R215), and the host's placing of an instruction. -/

namespace Sys2Proof.Machine

/-- One step: sample NMI, then IRQ, then fetch and execute (R215, R217). -/
def step (s : State) : Host.Outcome State Fault Refusal :=
  match s.takeInterrupt with
  | some t => .next t
  | none => exec s.fetch s

/-- `s` with the instruction of a table word stored where `step` fetches its next one (log entry 4). -/
def State.withFetchWord (s : State) (nbits w : Nat) : State := s.placeAtPc (tableBytes nbits w)

end Sys2Proof.Machine
end

