-- ==== Sys2Proof/Machine/InstrTable.lean ====
section
/-! DEFINITION. Facts of the instruction table by instruction: mode (40_addressing_modes.md R117), access class
(R114), base cycles and penalties (R115, R116), and what a store or a read-modify-write writes. The meanings do not
use them: Machine/Bus.lean and the statements do. -/

namespace Sys2Proof.Machine

/-- The 56 mnemonics (R2, R84), and the mark of the undefined rows. -/
inductive Mnemonic where
  | LDA | LDX | LDY | STA | STX | STY | TAX | TAY | TXA | TYA | TSX | TXS | PHA | PHP
  | PLA | PLP | AND | ORA | EOR | BIT | ADC | SBC | CMP | CPX | CPY | INC | DEC | INX
  | INY | DEX | DEY | ASL | LSR | ROL | ROR | JMP | JSR | RTS | BCC | BCS | BEQ | BNE
  | BMI | BPL | BVC | BVS | CLC | SEC | CLI | SEI | CLD | SED | CLV | NOP | BRK | RTI
  | UNDEFINED
  deriving DecidableEq, Repr

/-- The mnemonic of an instruction (R84). -/
def mnemonicOf : Instr → Mnemonic
  | .ldaImm _ | .ldaZp _ | .ldaZpx _ | .ldaAbs _ | .ldaAbsx _ | .ldaAbsy _ | .ldaIndx _ | .ldaIndy _ => .LDA
  | .ldxImm _ | .ldxZp _ | .ldxZpy _ | .ldxAbs _ | .ldxAbsy _ => .LDX
  | .ldyImm _ | .ldyZp _ | .ldyZpx _ | .ldyAbs _ | .ldyAbsx _ => .LDY
  | .staZp _ | .staZpx _ | .staAbs _ | .staAbsx _ | .staAbsy _ | .staIndx _ | .staIndy _ => .STA
  | .stxZp _ | .stxZpy _ | .stxAbs _ => .STX
  | .styZp _ | .styZpx _ | .styAbs _ => .STY
  | .tax => .TAX
  | .tay => .TAY
  | .txa => .TXA
  | .tya => .TYA
  | .tsx => .TSX
  | .txs => .TXS
  | .pha => .PHA
  | .php => .PHP
  | .pla => .PLA
  | .plp => .PLP
  | .andImm _ | .andZp _ | .andZpx _ | .andAbs _ | .andAbsx _ | .andAbsy _ | .andIndx _ | .andIndy _ => .AND
  | .oraImm _ | .oraZp _ | .oraZpx _ | .oraAbs _ | .oraAbsx _ | .oraAbsy _ | .oraIndx _ | .oraIndy _ => .ORA
  | .eorImm _ | .eorZp _ | .eorZpx _ | .eorAbs _ | .eorAbsx _ | .eorAbsy _ | .eorIndx _ | .eorIndy _ => .EOR
  | .bitZp _ | .bitAbs _ => .BIT
  | .adcImm _ | .adcZp _ | .adcZpx _ | .adcAbs _ | .adcAbsx _ | .adcAbsy _ | .adcIndx _ | .adcIndy _ => .ADC
  | .sbcImm _ | .sbcZp _ | .sbcZpx _ | .sbcAbs _ | .sbcAbsx _ | .sbcAbsy _ | .sbcIndx _ | .sbcIndy _ => .SBC
  | .cmpImm _ | .cmpZp _ | .cmpZpx _ | .cmpAbs _ | .cmpAbsx _ | .cmpAbsy _ | .cmpIndx _ | .cmpIndy _ => .CMP
  | .cpxImm _ | .cpxZp _ | .cpxAbs _ => .CPX
  | .cpyImm _ | .cpyZp _ | .cpyAbs _ => .CPY
  | .incZp _ | .incZpx _ | .incAbs _ | .incAbsx _ => .INC
  | .decZp _ | .decZpx _ | .decAbs _ | .decAbsx _ => .DEC
  | .inx => .INX
  | .iny => .INY
  | .dex => .DEX
  | .dey => .DEY
  | .aslAcc | .aslZp _ | .aslZpx _ | .aslAbs _ | .aslAbsx _ => .ASL
  | .lsrAcc | .lsrZp _ | .lsrZpx _ | .lsrAbs _ | .lsrAbsx _ => .LSR
  | .rolAcc | .rolZp _ | .rolZpx _ | .rolAbs _ | .rolAbsx _ => .ROL
  | .rorAcc | .rorZp _ | .rorZpx _ | .rorAbs _ | .rorAbsx _ => .ROR
  | .jmpAbs _ | .jmpInd _ => .JMP
  | .jsr _ => .JSR
  | .rts => .RTS
  | .bcc _ => .BCC
  | .bcs _ => .BCS
  | .beq _ => .BEQ
  | .bne _ => .BNE
  | .bmi _ => .BMI
  | .bpl _ => .BPL
  | .bvc _ => .BVC
  | .bvs _ => .BVS
  | .clc => .CLC
  | .sec => .SEC
  | .cli => .CLI
  | .sei => .SEI
  | .cld => .CLD
  | .sed => .SED
  | .clv => .CLV
  | .nop => .NOP
  | .brk => .BRK
  | .rti => .RTI
  | .undefined _ => .UNDEFINED

/-- The addressing mode of an instruction with its operand bytes (R84, R117). -/
def instrOperand : Instr → Operand
  | .tax | .tay | .txa | .tya | .tsx | .txs | .pha | .php | .pla | .plp | .inx | .iny | .dex | .dey
  | .rts | .clc | .sec | .cli | .sei | .cld | .sed | .clv | .nop | .brk | .rti => .implied
  | .aslAcc | .lsrAcc | .rolAcc | .rorAcc => .accumulator
  | .ldaImm b | .ldxImm b | .ldyImm b | .andImm b | .oraImm b | .eorImm b | .adcImm b | .sbcImm b
  | .cmpImm b | .cpxImm b | .cpyImm b => .immediate b
  | .ldaZp z | .ldxZp z | .ldyZp z | .staZp z | .stxZp z | .styZp z | .andZp z | .oraZp z | .eorZp z
  | .bitZp z | .adcZp z | .sbcZp z | .cmpZp z | .cpxZp z | .cpyZp z | .incZp z | .decZp z | .aslZp z
  | .lsrZp z | .rolZp z | .rorZp z => .memory (.zp z)
  | .ldaZpx z | .ldyZpx z | .staZpx z | .styZpx z | .andZpx z | .oraZpx z | .eorZpx z | .adcZpx z
  | .sbcZpx z | .cmpZpx z | .incZpx z | .decZpx z | .aslZpx z | .lsrZpx z | .rolZpx z | .rorZpx z => .memory (.zpx z)
  | .ldxZpy z | .stxZpy z => .memory (.zpy z)
  | .ldaAbs w | .ldxAbs w | .ldyAbs w | .staAbs w | .stxAbs w | .styAbs w | .andAbs w | .oraAbs w
  | .eorAbs w | .bitAbs w | .adcAbs w | .sbcAbs w | .cmpAbs w | .cpxAbs w | .cpyAbs w | .incAbs w
  | .decAbs w | .aslAbs w | .lsrAbs w | .rolAbs w | .rorAbs w | .jmpAbs w | .jsr w => .memory (.abs w)
  | .ldaAbsx w | .ldyAbsx w | .staAbsx w | .andAbsx w | .oraAbsx w | .eorAbsx w | .adcAbsx w | .sbcAbsx w
  | .cmpAbsx w | .incAbsx w | .decAbsx w | .aslAbsx w | .lsrAbsx w | .rolAbsx w | .rorAbsx w => .memory (.absx w)
  | .ldaAbsy w | .ldxAbsy w | .staAbsy w | .andAbsy w | .oraAbsy w | .eorAbsy w | .adcAbsy w | .sbcAbsy w
  | .cmpAbsy w => .memory (.absy w)
  | .jmpInd w => .indirect w
  | .ldaIndx z | .staIndx z | .andIndx z | .oraIndx z | .eorIndx z | .adcIndx z | .sbcIndx z | .cmpIndx z => .memory (.indx z)
  | .ldaIndy z | .staIndy z | .andIndy z | .oraIndy z | .eorIndy z | .adcIndy z | .sbcIndy z | .cmpIndy z => .memory (.indy z)
  | .bcc d | .bcs d | .beq d | .bne d | .bmi d | .bpl d | .bvc d | .bvs d => .relative d
  | .undefined _ => .implied

/-- The operand access classes of R114. -/
inductive AccessClass where
  /-- One read of the operand, or a literal. -/
  | read
  /-- One write, no read. -/
  | store
  /-- One read, then one write of the same address. -/
  | readModifyWrite
  /-- A to A. -/
  | accumulator
  /-- The address is the target; nothing is read there. -/
  | jumpTarget
  /-- Implied instructions, as their own rules say. -/
  | none
  deriving DecidableEq, Repr

/-- The access class of an instruction, by mnemonic as R114 lists them. -/
def accessClass (i : Instr) : AccessClass :=
  match mnemonicOf i with
  | .LDA | .LDX | .LDY | .AND | .ORA | .EOR | .ADC | .SBC | .CMP | .CPX | .CPY | .BIT => .read
  | .STA | .STX | .STY => .store
  | .INC | .DEC | .ASL | .LSR | .ROL | .ROR =>
    if instrOperand i = .accumulator then .accumulator else .readModifyWrite
  | .JMP | .JSR | .BCC | .BCS | .BEQ | .BNE | .BMI | .BPL | .BVC | .BVS => .jumpTarget
  | .TAX | .TAY | .TXA | .TYA | .TSX | .TXS | .PHA | .PHP | .PLA | .PLP | .INX | .INY | .DEX | .DEY
  | .RTS | .CLC | .SEC | .CLI | .SEI | .CLD | .SED | .CLV | .NOP | .BRK | .RTI | .UNDEFINED => .none

/-- The byte a store writes (R123, R124, R125); no other instruction is of that class. -/
def storedByte (i : Instr) (s : State) : Byte :=
  match mnemonicOf i with
  | .STX => s.x
  | .STY => s.y
  | _ => s.a

/-- The operation of a read-modify-write or accumulator instruction (R160, R161, R166 to R169); no other
instruction is of those classes. -/
def rmwOpOf (i : Instr) : RmwOp :=
  match mnemonicOf i with
  | .INC => incOp
  | .DEC => decOp
  | .ASL => aslOp
  | .LSR => lsrOp
  | .ROL => rolOp
  | .ROR => rorOp
  | _ => fun m p => (m, p)

/-- The table entry of an instruction's opcode (R83). -/
def instrEntry (i : Instr) : Entry := opcodeEntry ((encode i).headD 0x00#8)

/-- Whether the instruction is a branch whose condition holds (R174 to R182). -/
def branchTaken (i : Instr) (s : State) : Bool :=
  match mnemonicOf i with
  | .BCC => !s.p.c
  | .BCS => s.p.c
  | .BEQ => s.p.z
  | .BNE => !s.p.z
  | .BMI => s.p.n
  | .BPL => !s.p.n
  | .BVC => !s.p.v
  | .BVS => s.p.v
  | _ => false

/-- The cycle cost of an instruction: base, page-cross penalty, branch penalties (R116). -/
def cycleCost (i : Instr) (s : State) : Nat :=
  let crossing := ((instrOperand i).pageCrossed s).toNat
  (instrEntry i).baseCycles +
    match (instrEntry i).penalty with
    | .none => 0
    | .pageCross => crossing
    | .branch => if branchTaken i s then 1 + crossing else 0

end Sys2Proof.Machine
end

