-- ==== Sys2Proof/Machine/Bus.lean ====
section
/-! DEFINITION. The bus transactions of a step, in order (20_memory.md R53, R61, R62; 60_exceptions.md R220;
70_reset_and_hazards.md R240, R256). DESIGN CHOICE: they are a function of the state beside the step and no field of
State, safe; log entry 8. -/

namespace Sys2Proof.Machine

/-- One transaction of the memory bus, one byte wide (R53, R60). -/
inductive Access where
  /-- `MemRead(addr, 1)` (R51). -/
  | read (a : Word)
  /-- `MemWrite(addr, 1, v)` (R52). -/
  | write (a : Word) (v : Byte)
  deriving DecidableEq, Repr

/-- What a list of transactions does to memory (R51, R52). -/
def applyAccesses (m : Memory) : List Access → Memory
  | [] => m
  | .read _ :: rest => applyAccesses m rest
  | .write a v :: rest => applyAccesses (Memory.write m a.toNat v) rest

/-- Whether a transaction writes an address. -/
def Access.writes (a : Word) : Access → Bool
  | .read _ => false
  | .write k _ => k == a

/-- The opcode and `n` operand bytes, in ascending order (R57, R62). -/
def fetchAccesses (s : State) (n : Nat) : List Access :=
  (List.range (n + 1)).map fun k => .read (s.pc + BitVec.ofNat 16 k)

/-- The pointer reads of the indirect modes, low byte first (R55, R110 to R112). -/
def pointerAccesses (o : Operand) (s : State) : List Access :=
  match o with
  | .memory (.indx z) => [.read (zext16 (z + s.x)), .read (zext16 (z + s.x + 1#8))]
  | .memory (.indy z) => [.read (zext16 z), .read (zext16 (z + 1#8))]
  | .indirect w => [.read w, .read (mkWord (hiByte w) (loByte w + 1#8))]
  | _ => []

/-- The accesses of the effective address by class (R114). -/
def operandAccesses (i : Instr) (s : State) : List Access :=
  match instrOperand i with
  | .memory m =>
    match accessClass i with
    | .read => [.read (m.ea s)]
    | .store => [.write (m.ea s) (storedByte i s)]
    | .readModifyWrite => [.read (m.ea s), .write (m.ea s) (rmwOpOf i (s.readMem (m.ea s)) s.p).1]
    | _ => []
  | _ => []

/-- Pushes in order (R58). -/
def pushAccesses : State → List Byte → List Access
  | _, [] => []
  | s, v :: rest => .write s.stackAddr v :: pushAccesses (s.push v) rest

/-- `n` pulls (R59). -/
def pullAccesses : State → Nat → List Access
  | _, 0 => []
  | s, n + 1 => .read s.pulled.stackAddr :: pullAccesses s.pulled n

/-- Three writes, then the two vector reads of an entry (R220, D29). -/
def entryAccesses (s : State) (vector ret : Word) (b : Bool) : List Access :=
  pushAccesses s [hiByte ret, loByte ret, pImage b s.p] ++ [.read vector, .read (vector + 1#16)]

/-- The stack accesses of the instructions that push or pull (R136 to R139, R172, R173, R198, R199). -/
def stackAccesses (i : Instr) (s : State) : List Access :=
  match i with
  | .pha => pushAccesses s [s.a]
  | .php => pushAccesses s [pImage true s.p]
  | .pla => pullAccesses s 1
  | .plp => pullAccesses s 1
  | .jsr _ => pushAccesses s [hiByte (s.pc + 2#16), loByte (s.pc + 2#16)]
  | .rts => pullAccesses s 2
  | .brk => entryAccesses s Config.vecIrq (s.pc + 2#16) true
  | .rti => pullAccesses s 3
  | _ => []

/-- The transactions of one instruction: fetch, pointer, data, stack (R62). -/
def busTrace (i : Instr) (s : State) : List Access :=
  fetchAccesses s (instrOperand i).bytesConsumed ++ pointerAccesses (instrOperand i) s ++
    operandAccesses i s ++ stackAccesses i s

/-- The transactions of one step (R215, R220). -/
def stepTrace (s : State) : List Access :=
  if s.nmiPending then entryAccesses s Config.vecNmi s.pc false
  else if s.irqLine && !s.p.i then entryAccesses s Config.vecIrq s.pc false
  else busTrace s.fetch s

/-- The transactions of `reset()`: two reads and no write (R240). -/
def resetTrace : List Access := [.read Config.vecReset, .read (Config.vecReset + 1#16)]

end Sys2Proof.Machine
end

