-- ==== Sys2Proof/Machine/HostInterface.lean ====
section
/-! DEFINITION. What the host can do between steps (60_exceptions.md R230 to R236, 10_state.md R38). -/

namespace Sys2Proof.Machine

/-! ## `execute` -/

/-- Why `execute` ended before its budget was spent (R233). -/
inductive Stop where
  /-- A step raised the fault (R233). -/
  | fault (f : Fault)
  /-- A step was refused; no step of this model is. -/
  | refused (r : Refusal)
  deriving DecidableEq, Repr

/-- What `execute` hands back: the state, the cycles consumed by the completed steps, and the fault if one
ended the call (R231, R233). DESIGN CHOICE, safe: the shape is the model's (D26); log entry 9. -/
structure ExecuteResult where
  /-- The state at the return. -/
  state : State
  /-- Cycles consumed in this call. -/
  used : Nat
  /-- The fault, if one ended the call. -/
  stop : Option Stop
  deriving DecidableEq, Repr

/-- The run loop (R231); `fuel` bounds the number of steps, and a step costs at least one cycle, so fuel
equal to the budget never ends the loop first (log entry 9). -/
def executeLoop : Nat → Nat → Nat → State → ExecuteResult
  | 0, _, used, s => { state := s, used := used, stop := none }
  | fuel + 1, budget, used, s =>
    if used < budget then
      match step s with
      | .next t => executeLoop fuel budget (used + (t.cyc - s.cyc)) t
      | .fault f => { state := s, used := used, stop := some (.fault f) }
      | .refused r => { state := s, used := used, stop := some (.refused r) }
    else { state := s, used := used, stop := none }

/-- `execute(cycle_budget)` (R231); a budget that is not positive does nothing (R232). -/
def execute (budget : Int) (s : State) : ExecuteResult :=
  if budget ≤ 0 then { state := s, used := 0, stop := none }
  else executeLoop budget.toNat budget.toNat 0 s

/-! ## The host's calls -/

/-- The 8-bit registers the host can name (R38). -/
inductive RegName where
  /-- Accumulator. -/
  | a
  /-- Index X. -/
  | x
  /-- Index Y. -/
  | y
  deriving DecidableEq, Repr

/-- The flags the host can name (R38). -/
inductive FlagName where
  /-- Negative. -/
  | n
  /-- Overflow. -/
  | v
  /-- Break, the inert stored bit (R29). -/
  | b
  /-- Decimal. -/
  | d
  /-- Interrupt-disable. -/
  | i
  /-- Zero. -/
  | z
  /-- Carry. -/
  | c
  deriving DecidableEq, Repr

/-- One interaction of the host (R230); it happens between steps. -/
inductive HostCall where
  /-- `reset()` (R240). -/
  | reset
  /-- `execute(cycle_budget)` (R231). -/
  | execute (budget : Int)
  /-- Read A, X or Y (R38). -/
  | readReg (r : RegName)
  /-- Read the stack pointer as the true address (R38, D24). -/
  | readStackPointer
  /-- Read PC (R38). -/
  | readPc
  /-- Read one flag (R38). -/
  | readFlag (f : FlagName)
  /-- Read the cumulative cycle counter (R33, R38). -/
  | readCycles
  /-- Write A, X or Y (R38). -/
  | writeReg (r : RegName) (v : Byte)
  /-- Write SP (R38). -/
  | writeSp (v : Byte)
  /-- Write PC (R38). -/
  | writePc (w : Word)
  /-- Write one flag (R38). -/
  | writeFlag (f : FlagName) (v : Bool)
  /-- Read a byte of memory (R234). -/
  | readMem (a : Word)
  /-- Write a byte of memory (R234). -/
  | writeMem (a : Word) (v : Byte)
  /-- `raise_nmi()` (R235). -/
  | raiseNmi
  /-- `set_irq(level)` (R235). -/
  | setIrq (level : Bool)
  deriving DecidableEq, Repr

/-- What the host gets back (R230). -/
inductive HostReply where
  /-- Nothing. -/
  | nothing
  /-- A register or memory byte. -/
  | byte (v : Byte)
  /-- An address. -/
  | word (w : Word)
  /-- A flag. -/
  | bit (v : Bool)
  /-- The cycle counter. -/
  | cycles (n : Nat)
  /-- The result of `execute`: cycles consumed, and the fault if there was one (R233). -/
  | executed (used : Nat) (stop : Option Stop)
  deriving DecidableEq, Repr

/-- A register as the host reads it (R38). -/
def State.hostReg (s : State) : RegName → Byte
  | .a => s.a
  | .x => s.x
  | .y => s.y

/-- A register as the host writes it (R38). -/
def State.hostSetReg (s : State) (v : Byte) : RegName → State
  | .a => { s with a := v }
  | .x => { s with x := v }
  | .y => { s with y := v }

/-- A flag as the host reads it (R38). -/
def State.hostFlag (s : State) : FlagName → Bool
  | .n => s.p.n
  | .v => s.p.v
  | .b => s.p.b
  | .d => s.p.d
  | .i => s.p.i
  | .z => s.p.z
  | .c => s.p.c

/-- A flag as the host writes it (R38). -/
def State.hostSetFlag (s : State) (v : Bool) : FlagName → State
  | .n => { s with p := { s.p with n := v } }
  | .v => { s with p := { s.p with v := v } }
  | .b => { s with p := { s.p with b := v } }
  | .d => { s with p := { s.p with d := v } }
  | .i => { s with p := { s.p with i := v } }
  | .z => { s with p := { s.p with z := v } }
  | .c => { s with p := { s.p with c := v } }

/-- One call of the host: the state after it and what comes back (R230). -/
def hostCall (call : HostCall) (s : State) : State × HostReply :=
  match call with
  | .reset => (s.resetCall, .nothing)
  | .execute budget =>
    let out := execute budget s
    (out.state, .executed out.used out.stop)
  | .readReg r => (s, .byte (s.hostReg r))
  | .readStackPointer => (s, .word s.stackAddr)
  | .readPc => (s, .word s.pc)
  | .readFlag f => (s, .bit (s.hostFlag f))
  | .readCycles => (s, .cycles s.cyc)
  | .writeReg r v => (s.hostSetReg v r, .nothing)
  | .writeSp v => ({ s with sp := v }, .nothing)
  | .writePc w => ({ s with pc := w }, .nothing)
  | .writeFlag f v => (s.hostSetFlag v f, .nothing)
  | .readMem a => (s, .byte (s.readMem a))
  | .writeMem a v => (s.writeMem a v, .nothing)
  | .raiseNmi => ({ s with nmiPending := true }, .nothing)
  | .setIrq level => ({ s with irqLine := level }, .nothing)

end Sys2Proof.Machine
end

