-- ==== Sys2Proof/Safety.lean ====
section
/-! DEFINITION. The words claims are stated in: the invariant, when no interrupt is due, which instructions write
PC, a register or a flag (10_state.md R25, R41), and the operand rows of the instruction tables. -/

namespace Sys2Proof.Machine

/-- The invariant of every state a run reaches: memory is in its canonical form. -/
def State.Inv (s : State) : Prop := Memory.wf s.mem = true

/-- No interrupt is due at this boundary, so the next step fetches (R215). -/
def State.quiet (s : State) : Prop := s.nmiPending = false ∧ (s.irqLine = false ∨ s.p.i = true)

/-- The same state with another value of the inert bit B (R29). -/
def State.withB (s : State) (b : Bool) : State := { s with p := { s.p with b := b } }

/-- The same state with more cycles on the counter (R33). -/
def State.addCycles (s : State) (k : Nat) : State := { s with cyc := s.cyc + k }

/-- Applies a function to the next state of an outcome. -/
def mapNext (f : State → State) : Result → Result
  | .next t => .next (f t)
  | .fault e => .fault e
  | .refused e => .refused e

end Sys2Proof.Machine

namespace Sys2Proof.Claims

open Sys2Proof.Machine

/-- The instructions that write PC themselves (R23): jumps, calls, returns, BRK, and a branch that is taken. -/
def transfersControl (i : Instr) (s : State) : Bool :=
  [.JMP, .JSR, .RTS, .RTI, .BRK].contains (mnemonicOf i) || branchTaken i s

/-- The instructions that write A: R41's row, the accumulator forms of the shifts among them. -/
def writesA (i : Instr) : Bool :=
  [.LDA, .PLA, .TXA, .TYA, .AND, .ORA, .EOR, .ADC, .SBC].contains (mnemonicOf i) || accessClass i == .accumulator

/-- The instructions that write X (R41). -/
def writesX (i : Instr) : Bool := [.LDX, .TAX, .TSX, .INX, .DEX].contains (mnemonicOf i)

/-- The instructions that write Y (R41). -/
def writesY (i : Instr) : Bool := [.LDY, .TAY, .INY, .DEY].contains (mnemonicOf i)

/-- The instructions that write SP (R41). -/
def writesSp (i : Instr) : Bool := [.TXS, .PHA, .PHP, .PLA, .PLP, .JSR, .RTS, .BRK, .RTI].contains (mnemonicOf i)

/-- The instructions that write C (R25). -/
def writesC (i : Instr) : Bool :=
  [.ADC, .SBC, .CMP, .CPX, .CPY, .ASL, .ROL, .LSR, .ROR, .CLC, .SEC, .PLP, .RTI].contains (mnemonicOf i)

/-- The instructions that write Z, and the same ones N (R25). -/
def writesZN (i : Instr) : Bool :=
  [.LDA, .LDX, .LDY, .TAX, .TAY, .TXA, .TYA, .TSX, .PLA, .AND, .ORA, .EOR, .ADC, .SBC, .INC, .DEC, .INX, .INY,
   .DEX, .DEY, .ASL, .LSR, .ROL, .ROR, .CMP, .CPX, .CPY, .BIT, .PLP, .RTI].contains (mnemonicOf i)

/-- The instructions that write I (R25). -/
def writesI (i : Instr) : Bool := [.SEI, .CLI, .PLP, .RTI, .BRK].contains (mnemonicOf i)

/-- The instructions that write D (R25). -/
def writesD (i : Instr) : Bool := [.SED, .CLD, .PLP, .RTI].contains (mnemonicOf i)

/-- The instructions that write V (R25). -/
def writesV (i : Instr) : Bool := [.ADC, .SBC, .BIT, .CLV, .PLP, .RTI].contains (mnemonicOf i)

/-! ## Rows of the instruction tables, written from the tables themselves -/

/-- One more cycle if the two addresses lie in different pages (R8, R115, R174). -/
def pageCost (a b : Word) : Nat := if hiByte a = hiByte b then 0 else 1

/-- The reads of an instruction's first `n` bytes, in ascending order (R57, R62). -/
def fetchReads (s : State) : Nat → List Access
  | 0 => []
  | n + 1 => fetchReads s n ++ [.read (s.pc + BitVec.ofNat 16 n)]

/-- A row of a table of read-class forms: the operand bytes, the operand value, what is read for it, length, cycles
with penalty. -/
structure ReadRow where
  /-- The bytes after the opcode. -/
  operands : List Byte
  /-- The operand value `m` (R114). -/
  value : Byte
  /-- The addresses read after the fetch: pointer low, pointer high, operand (R62). -/
  reads : List Word
  /-- Length in bytes. -/
  length : Nat
  /-- Cycles, the page-cross penalty included. -/
  cycles : Nat

/-- Row imm of the eight-mode table (43_logic_arith.md; R103). -/
def readImm (b : Byte) : ReadRow := ⟨[b], b, [], 2, 2⟩

/-- Row zp (R104). -/
def readZp (s : State) (z : Byte) : ReadRow := ⟨[z], s.readMem (zext16 z), [zext16 z], 2, 3⟩

/-- Row zpx (R105). -/
def readZpx (s : State) (z : Byte) : ReadRow := ⟨[z], s.readMem (zext16 (z + s.x)), [zext16 (z + s.x)], 2, 4⟩

/-- Row zpy (R106). -/
def readZpy (s : State) (z : Byte) : ReadRow := ⟨[z], s.readMem (zext16 (z + s.y)), [zext16 (z + s.y)], 2, 4⟩

/-- Row abs (R107). -/
def readAbs (s : State) (w : Word) : ReadRow := ⟨[loByte w, hiByte w], s.readMem w, [w], 3, 4⟩

/-- Row absx (R108, R115). -/
def readAbsx (s : State) (w : Word) : ReadRow :=
  ⟨[loByte w, hiByte w], s.readMem (w + zext16 s.x), [w + zext16 s.x], 3, 4 + pageCost w (w + zext16 s.x)⟩

/-- Row absy (R109, R115). -/
def readAbsy (s : State) (w : Word) : ReadRow :=
  ⟨[loByte w, hiByte w], s.readMem (w + zext16 s.y), [w + zext16 s.y], 3, 4 + pageCost w (w + zext16 s.y)⟩

/-- The zero-page pointer at `z`: low byte first, both bytes from page 0 (R55). -/
def pointer (s : State) (z : Byte) : Word := mkWord (s.readMem (zext16 (z + 1#8))) (s.readMem (zext16 z))

/-- Row indx (R111). -/
def readIndx (s : State) (z : Byte) : ReadRow :=
  ⟨[z], s.readMem (pointer s (z + s.x)), [zext16 (z + s.x), zext16 (z + s.x + 1#8), pointer s (z + s.x)], 2, 6⟩

/-- Row indy (R112, R115). -/
def readIndy (s : State) (z : Byte) : ReadRow :=
  ⟨[z], s.readMem (pointer s z + zext16 s.y), [zext16 z, zext16 (z + 1#8), pointer s z + zext16 s.y], 2,
    5 + pageCost (pointer s z) (pointer s z + zext16 s.y)⟩

/-- Every listed form has the given opcode and operand bytes; its execution answers the state that `effect` makes of
the operand value, with PC past the instruction and the row's cycles added; its transactions are the reads of its
bytes and of the row. -/
def ReadForms (forms : List (Instr × Byte × ReadRow)) (s : State) (effect : Byte → State) : Prop :=
  ∀ f ∈ forms, encode f.1 = f.2.1 :: f.2.2.operands ∧
    exec f.1 s = .next { effect f.2.2.value with
      pc := s.pc + BitVec.ofNat 16 f.2.2.length, cyc := s.cyc + f.2.2.cycles } ∧
    busTrace f.1 s = fetchReads s f.2.2.length ++ f.2.2.reads.map .read

/-- A row of a table of forms that write memory: the operand bytes, the pointer reads, the address written, length,
cycles. -/
structure WriteRow where
  /-- The bytes after the opcode. -/
  operands : List Byte
  /-- The addresses of the pointer bytes, low then high. -/
  pointers : List Word
  /-- The effective address. -/
  ea : Word
  /-- Length in bytes. -/
  length : Nat
  /-- Cycles. -/
  cycles : Nat

/-- Zero page, with the row's cycles. -/
def writeZp (z : Byte) (cycles : Nat) : WriteRow := ⟨[z], [], zext16 z, 2, cycles⟩

/-- Zero page,X. -/
def writeZpx (s : State) (z : Byte) (cycles : Nat) : WriteRow := ⟨[z], [], zext16 (z + s.x), 2, cycles⟩

/-- Zero page,Y. -/
def writeZpy (s : State) (z : Byte) (cycles : Nat) : WriteRow := ⟨[z], [], zext16 (z + s.y), 2, cycles⟩

/-- Absolute. -/
def writeAbs (w : Word) (cycles : Nat) : WriteRow := ⟨[loByte w, hiByte w], [], w, 3, cycles⟩

/-- Absolute,X. -/
def writeAbsx (s : State) (w : Word) (cycles : Nat) : WriteRow :=
  ⟨[loByte w, hiByte w], [], w + zext16 s.x, 3, cycles⟩

/-- Absolute,Y. -/
def writeAbsy (s : State) (w : Word) (cycles : Nat) : WriteRow :=
  ⟨[loByte w, hiByte w], [], w + zext16 s.y, 3, cycles⟩

/-- Indexed indirect (X). -/
def writeIndx (s : State) (z : Byte) (cycles : Nat) : WriteRow :=
  ⟨[z], [zext16 (z + s.x), zext16 (z + s.x + 1#8)], pointer s (z + s.x), 2, cycles⟩

/-- Indirect indexed (Y). -/
def writeIndy (s : State) (z : Byte) (cycles : Nat) : WriteRow :=
  ⟨[z], [zext16 z, zext16 (z + 1#8)], pointer s z + zext16 s.y, 2, cycles⟩

/-- Every listed form has the given opcode and operand bytes; its execution answers a state in which the byte at the
row's address is `out` of the old byte there, every other byte reads as before, the status is `status` of the old byte,
and nothing else but PC and CYC has changed; its transactions are the reads of its bytes and pointers, one read of the
address if `reading`, and one write of it. -/
def WriteForms (forms : List (Instr × Byte × WriteRow)) (s : State) (reading : Bool) (out : Byte → Byte)
    (status : Byte → Status) : Prop :=
  ∀ f ∈ forms, encode f.1 = f.2.1 :: f.2.2.operands ∧
    (∃ t, exec f.1 s = .next t ∧
      t = { s with mem := t.mem, p := status (s.readMem f.2.2.ea),
                   pc := s.pc + BitVec.ofNat 16 f.2.2.length, cyc := s.cyc + f.2.2.cycles } ∧
      t.readMem f.2.2.ea = out (s.readMem f.2.2.ea) ∧
      ∀ a, a ≠ f.2.2.ea → t.readMem a = s.readMem a) ∧
    busTrace f.1 s = fetchReads s f.2.2.length ++ f.2.2.pointers.map .read ++
      (if reading then [.read f.2.2.ea] else []) ++ [.write f.2.2.ea (out (s.readMem f.2.2.ea))]

/-- A one-byte instruction: the given opcode, the state after it but for PC and CYC, and its transactions after the
fetch of the opcode. -/
def OneByte (i : Instr) (op : Byte) (cycles : Nat) (s effect : State) (accesses : List Access) : Prop :=
  encode i = [op] ∧ exec i s = .next { effect with pc := s.pc + 1#16, cyc := s.cyc + cycles } ∧
    busTrace i s = fetchReads s 1 ++ accesses

/-- `P` with Z and N set from a byte (R26). -/
def withZN (p : Status) (v : Byte) : Status := { p with z := decide (v = 0#8), n := v.getLsbD 7 }

/-- The stack address `k` below the one SP points at (R22, R58). -/
def stackSlot (s : State) (k : Nat) : Word := mkWord 0x01#8 (s.sp - BitVec.ofNat 8 k)

/-- The memory of `t` is that of `s` with three bytes pushed in this order (R58, R220). -/
def ThreePushed (s t : State) (b0 b1 b2 : Byte) : Prop :=
  t.readMem (stackSlot s 0) = b0 ∧ t.readMem (stackSlot s 1) = b1 ∧ t.readMem (stackSlot s 2) = b2 ∧
    ∀ a, a ≠ stackSlot s 0 → a ≠ stackSlot s 1 → a ≠ stackSlot s 2 → t.readMem a = s.readMem a

/-- Three pushes in this order, then the two vector reads, low byte first (R220). -/
def entryTransactions (s : State) (vectorLow vectorHigh ret : Word) (b : Bool) : List Access :=
  [.write (stackSlot s 0) (hiByte ret), .write (stackSlot s 1) (loByte ret), .write (stackSlot s 2) (pImage b s.p),
   .read vectorLow, .read vectorHigh]

/-- `t` is `s` after the entry of R220 at a vector, with return address `ret`, B position `b` and the given
cycles, but for the latch of NMI. -/
def EntryEffect (s t : State) (vectorLow vectorHigh ret : Word) (b : Bool) (cycles : Nat) : Prop :=
  t = { s with mem := t.mem, sp := s.sp - 3#8, p := { s.p with i := true },
               pc := mkWord (s.readMem vectorHigh) (s.readMem vectorLow),
               cyc := s.cyc + cycles, nmiPending := t.nmiPending } ∧
    ThreePushed s t (hiByte ret) (loByte ret) (pImage b s.p)

/-- Both digits of a byte are decimal digits (R146). -/
def validBcd (v : Byte) : Prop := v.toNat / 16 ≤ 9 ∧ v.toNat % 16 ≤ 9

/-- The decimal number two digits read as (R146). -/
def decimal (v : Byte) : Nat := 10 * (v.toNat / 16) + v.toNat % 16

end Sys2Proof.Claims
end

