-- ==== Sys2Proof/Certificates/Slice0/Obligations.lean ====
section
/-! DEFINITION. The statements for the provers. A form's row (encoding, operand, length, cycles) is written from the
instruction's rule; the words they use stand in Sys2Proof/Safety.lean. A next state written as a record update of `s`
is the instruction's frame too: every field not named is that of `s`. -/

open Sys2Proof Sys2Proof.Machine Sys2Proof.Claims Host

/-! ## Reset -/

/-- R240, R241: what `reset()` assigns, what it leaves alone, and its two bus reads. Clearing `nmi_pending` and leaving
the unnamed state alone are the spec's decisions D9 and D5. -/
def Obligations.ResetCallAssigns : Prop :=
  (∀ s : State, s.resetCall =
    { s with sp := 0xFD#8, p := { s.p with d := false, i := true },
             pc := mkWord (s.readMem 0xFFFD#16) (s.readMem 0xFFFC#16), cyc := 0, nmiPending := false }) ∧
    resetTrace = [.read 0xFFFC#16, .read 0xFFFD#16]

/-- R39: the start state is what `reset()` makes of the named power-on state. The power-on values themselves are the
model's choice (log entries 1, 2, 3, 5); the values below are the spec's. -/
def Obligations.ResetStateIsAResetCall : Prop :=
  State.reset = State.powerOn.resetCall ∧ State.reset.sp = 0xFD#8 ∧ State.reset.p.i = true ∧
    State.reset.p.d = false ∧ State.reset.cyc = 0 ∧ State.reset.nmiPending = false

/-! ## The invariant -/

/-- The start state meets the invariant. -/
def Obligations.InvariantAtReset : Prop := State.reset.Inv

/-- Every step keeps memory in its canonical form, from every state that has it. -/
def Obligations.StepKeepsInvariant : Prop := ∀ s t : State, s.Inv → step s = .next t → t.Inv

/-- Every call of the host keeps it, `execute` among them. -/
def Obligations.HostCallKeepsInvariant : Prop := ∀ (c : HostCall) (s : State), s.Inv → (hostCall c s).1.Inv

/-! ## Encoding -/

/-- R80, R81: decoding the bytes of a well-formed instruction gives it back, at every operand value. -/
def Obligations.DecodeOfEncode : Prop :=
  ∀ (i : Instr) (rest : List Byte), i.wellFormed = true → decode (encode i ++ rest) = .ok (i, rest)

/-- R83: what the decoder reads from any bytes is well formed, and encodes to the bytes it consumed. -/
def Obligations.EncodeOfDecode : Prop :=
  ∀ (bytes rest : List Byte) (i : Instr), decode bytes = .ok (i, rest) →
    i.wellFormed = true ∧ encode i ++ rest = bytes

/-- Words written out from the examples of R88 and of the instruction rules, one or more for each family. -/
def Obligations.SampleWordsDecode : Prop :=
  decode [0xAD#8, 0x34#8, 0x12#8] = .ok (.ldaAbs 0x1234#16, []) ∧
  decode [0x96#8, 0x10#8] = .ok (.stxZpy 0x10#8, []) ∧
  decode [0xBA#8] = .ok (.tsx, []) ∧
  decode [0x71#8, 0x86#8] = .ok (.adcIndy 0x86#8, []) ∧
  decode [0x24#8, 0x10#8] = .ok (.bitZp 0x10#8, []) ∧
  decode [0xDE#8, 0xFC#8, 0xFA#8] = .ok (.decAbsx 0xFAFC#16, []) ∧
  decode [0x0A#8] = .ok (.aslAcc, []) ∧
  decode [0x6C#8, 0x34#8, 0x12#8] = .ok (.jmpInd 0x1234#16, []) ∧
  decode [0x90#8, 0x05#8] = .ok (.bcc 0x05#8, []) ∧
  decode [0x00#8, 0xEA#8] = .ok (.brk, [0xEA#8]) ∧
  decode [0x80#8, 0x00#8] = .ok (.undefined 0x80#8, [0x00#8])

/-- R85: the 105 listed values, and no others, decode as undefined, without an operand byte, and execute to the
fault at PC. The policy is the spec's decision D1 (log entry 6). -/
def Obligations.UndefinedOpcodesAreListed : Prop :=
  undefinedOpcodes.length = 105 ∧ undefinedOpcodes.Nodup ∧
    (∀ (op : Byte) (rest : List Byte),
      decode (op :: rest) = .ok (.undefined op, rest) ↔ op.toNat ∈ undefinedOpcodes) ∧
    ∀ (op : Byte) (s : State), exec (.undefined op) s = .fault (.illegalOpcode s.pc op) ∧
      busTrace (.undefined op) s = fetchReads s 1

/-! ## The step -/

/-- R57, R83, R215: with no interrupt due, a step is the execution of the instruction the bytes at PC decode to. -/
def Obligations.StepRunsDecodedInstruction : Prop :=
  ∀ (s : State) (i : Instr) (rest : List Byte), s.nmiPending = false → (s.irqLine = false ∨ s.p.i = true) →
    decode [s.readMem s.pc, s.readMem (s.pc + 1#16), s.readMem (s.pc + 2#16)] = .ok (i, rest) → step s = exec i s

/-- R220, R221: a pending NMI is entered first, whatever I and the IRQ line are, and its request is cleared. The
seven cycles and the priority are the spec's decisions D4 and D8. -/
def Obligations.NmiIsEntered : Prop :=
  ∀ s : State, s.nmiPending = true →
    stepTrace s = entryTransactions s 0xFFFA#16 0xFFFB#16 s.pc false ∧ ∃ t, step s = .next t ∧
    t.nmiPending = false ∧ EntryEffect s t 0xFFFA#16 0xFFFB#16 s.pc false 7

/-- R220, R222: with no NMI pending, the line at 1 and I at 0, IRQ is entered; the line is not changed.
The seven cycles are the spec's decision D4. -/
def Obligations.IrqIsEntered : Prop :=
  ∀ s : State, s.nmiPending = false → s.irqLine = true → s.p.i = false →
    stepTrace s = entryTransactions s 0xFFFE#16 0xFFFF#16 s.pc false ∧ ∃ t, step s = .next t ∧
    t.nmiPending = false ∧ EntryEffect s t 0xFFFE#16 0xFFFF#16 s.pc false 7

/-- R216, R246: I masks IRQ by its value at the boundary: at 1 (and no NMI) the level of the line plays no part, the
step being the same with either level, the line itself apart; when an instruction leaves I at 0 with the line at 1
(CLI, PLP, RTI), the very next step is the entry. That there is no delay is the spec's decision D11. -/
def Obligations.IrqIsMaskedByI : Prop :=
  (∀ (s : State) (level : Bool), s.nmiPending = false → s.p.i = true →
    step { s with irqLine := level } = mapNext (fun t => { t with irqLine := level }) (step s)) ∧
  ∀ (i : Instr) (s t : State), s.nmiPending = false → s.irqLine = true → exec i s = .next t → t.p.i = false →
    ∃ u, step t = .next u ∧ EntryEffect t u 0xFFFE#16 0xFFFF#16 t.pc false 7

/-- R12, R200, R210: a step faults exactly when no interrupt is due and the byte at PC is an undefined opcode; the
fault then carries PC and the byte. No step is refused, and each defined instruction completes from every state. -/
def Obligations.StepFaultsExactlyOnUndefinedOpcodes : Prop :=
  (∀ (s : State) (f : Fault), step s = .fault f ↔
    s.quiet ∧ (s.readMem s.pc).toNat ∈ undefinedOpcodes ∧ f = .illegalOpcode s.pc (s.readMem s.pc)) ∧
  (∀ (s : State) (r : Refusal), step s ≠ .refused r) ∧
  ∀ (i : Instr) (s : State), (∀ op, i ≠ .undefined op) → ∃ t, exec i s = .next t

/-- R252: a step costs at least 2 and at most 7 cycles. -/
def Obligations.StepCostsTwoToSeven : Prop :=
  ∀ s t : State, step s = .next t → s.cyc + 2 ≤ t.cyc ∧ t.cyc ≤ s.cyc + 7

/-- R116: the cost of an instruction is its entry's base count, the page-cross penalty of a `+` opcode, and the branch
penalties. -/
def Obligations.CyclesAreBasePlusPenalty : Prop :=
  ∀ (i : Instr) (s t : State), exec i s = .next t → t.cyc = s.cyc + cycleCost i s

/-- R23, R118: an instruction that does not write PC itself leaves PC at its own address plus its length,
modulo 65536 (the spec's decision D15). -/
def Obligations.PcAdvancesByLength : Prop :=
  ∀ (i : Instr) (s t : State), exec i s = .next t → transfersControl i s = false →
    t.pc = s.pc + BitVec.ofNat 16 (encode i).length

/-! ## What no instruction does -/

/-- R29: nothing reads or writes B (the spec's decision D7; log entry 5). -/
def Obligations.BreakBitIsInert : Prop :=
  ∀ (s : State) (b : Bool), step (s.withB b) = mapNext (fun t => t.withB b) (step s)

/-- R33, R226: nothing reads CYC: a run with more cycles on the counter is the same run. -/
def Obligations.CycleCounterIsUnread : Prop :=
  ∀ (s : State) (k : Nat), step (s.addCycles k) = mapNext (fun t => t.addCycles k) (step s)

/-- R25: an instruction not named in a flag's row leaves that flag unchanged. -/
def Obligations.FlagsChangeOnlyByTheirWriters : Prop :=
  ∀ (i : Instr) (s t : State), exec i s = .next t →
    (writesC i = false → t.p.c = s.p.c) ∧
    (writesZN i = false → t.p.z = s.p.z ∧ t.p.n = s.p.n) ∧
    (writesI i = false → t.p.i = s.p.i) ∧
    (writesD i = false → t.p.d = s.p.d) ∧
    (writesV i = false → t.p.v = s.p.v)

/-- R41: an instruction not named in a register's row leaves that register unchanged. -/
def Obligations.RegistersChangeOnlyByTheirWriters : Prop :=
  ∀ (i : Instr) (s t : State), exec i s = .next t →
    (writesA i = false → t.a = s.a) ∧ (writesX i = false → t.x = s.x) ∧
    (writesY i = false → t.y = s.y) ∧ (writesSp i = false → t.sp = s.sp)

/-- R213, R235: after every step no NMI request is pending (an entry clears it, nothing else raises it) and the IRQ
line is as the host left it; an instruction changes neither latch. That the line is held as a field no step changes is
the model's choice (log entry 3; the spec's decision D10 leaves who drives it open). -/
def Obligations.StepsDoNotRaiseInterrupts : Prop :=
  (∀ s t : State, step s = .next t → t.irqLine = s.irqLine ∧ t.nmiPending = false) ∧
  ∀ (i : Instr) (s t : State), exec i s = .next t → t.irqLine = s.irqLine ∧ t.nmiPending = s.nmiPending

/-! ## Memory -/

/-- R51, R52: a byte written is the byte read back, every other byte and all other state stay, and a read of any
address depends on the memory only. -/
def Obligations.MemWriteThenRead : Prop :=
  ∀ (s : State) (a b : Word) (v : Byte),
    (s.writeMem a v).readMem a = v ∧ (b ≠ a → (s.writeMem a v).readMem b = s.readMem b) ∧
    s.writeMem a v = { s with mem := (s.writeMem a v).mem }

/-- Memories in canonical form that read the same everywhere are the same list: the form the model holds memory in
loses nothing (the model's own form; log entry 2). -/
def Obligations.EqualReadsGiveEqualMemory : Prop :=
  ∀ s t : State, s.Inv → t.Inv → (∀ a : Word, s.readMem a = t.readMem a) → s.mem = t.mem

/-- R55: the three 16-bit reads, with the page wraps, and the worked examples of the rule. The wrap in
page 0 is the spec's decision D16. -/
def Obligations.SixteenBitReads : Prop :=
  ∀ s : State,
    (∀ a : Word, s.read16 a = mkWord (s.readMem (a + 1#16)) (s.readMem a)) ∧
    (∀ z : Byte, s.read16Zp z = mkWord (s.readMem (zext16 (z + 1#8))) (s.readMem (zext16 z))) ∧
    (∀ h l : Byte, s.read16PageWrap (mkWord h l) = mkWord (s.readMem (mkWord h (l + 1#8))) (s.readMem (mkWord h l))) ∧
    (∀ a : Word, loByte a ≠ 0xFF#8 → s.read16PageWrap a = s.read16 a) ∧
    (s.readMem 0x00FF#16 = 0x34#8 → s.readMem 0x0000#16 = 0x12#8 → s.readMem 0x0100#16 = 0x99#8 →
      s.read16Zp 0xFF#8 = 0x1234#16 ∧ s.read16 0x00FF#16 = 0x9934#16) ∧
    (s.readMem 0x02FF#16 = 0x00#8 → s.readMem 0x0200#16 = 0x40#8 → s.read16PageWrap 0x02FF#16 = 0x4000#16)

/-- R58, R59: a push stores at 0x0100 + SP and decrements, a pull increments and reads there, a pull after a push
returns the byte and restores SP (the spec derives this last from R58 and R52); SP wraps in its page. -/
def Obligations.PushAndPull : Prop :=
  ∀ (s : State) (v : Byte),
    s.push v = { s with mem := (s.push v).mem, sp := s.sp - 1#8 } ∧
    (s.push v).readMem (mkWord 0x01#8 s.sp) = v ∧
    (∀ a, a ≠ mkWord 0x01#8 s.sp → (s.push v).readMem a = s.readMem a) ∧
    s.pulled = { s with sp := s.sp + 1#8 } ∧ s.pullByte = s.readMem (mkWord 0x01#8 (s.sp + 1#8)) ∧
    (s.push v).pullByte = v ∧ (s.push v).pulled.sp = s.sp

/-- R61, R62: an instruction changes memory by exactly the writes among its transactions, in their order, and its
first transactions are the reads of its own bytes in ascending order. The list of transactions is log entry 8. -/
def Obligations.MemoryChangesByTheTransactions : Prop :=
  ∀ (i : Instr) (s t : State), exec i s = .next t →
    t.mem = applyAccesses s.mem (busTrace i s) ∧
    (busTrace i s).take (encode i).length =
      (List.range (encode i).length).map (fun k => .read (s.pc + BitVec.ofNat 16 k))

/-- The frame of memory over all steps, interrupt entries among them: a byte that no transaction of the step writes
reads as before. -/
def Obligations.UnwrittenBytesAreKept : Prop :=
  ∀ (s t : State) (a : Word), step s = .next t → (∀ x ∈ stepTrace s, x.writes a = false) → t.readMem a = s.readMem a

/-! ## The status byte and the resolver -/

/-- R27, R28: the packed byte, and what loading a byte writes; bits 5 and 4 and the bit B are left out
(the spec's decision D7). -/
def Obligations.StatusByte : Prop :=
  (∀ (b : Bool) (p : Status), (pImage b p).toNat =
    128 * p.n.toNat + 64 * p.v.toNat + 32 + 16 * b.toNat + 8 * p.d.toNat + 4 * p.i.toNat + 2 * p.z.toNat + p.c.toNat) ∧
  (∀ (v : Byte) (p : Status), pLoad v p =
    { n := v.getLsbD 7, v := v.getLsbD 6, b := p.b, d := v.getLsbD 3, i := v.getLsbD 2, z := v.getLsbD 1,
      c := v.getLsbD 0 }) ∧
  ∀ (b : Bool) (p q : Status), pLoad (pImage b p) q = { p with b := q.b }

/-- R101 to R113: effective address, bytes consumed and page crossing of each mode. -/
def Obligations.ModesResolve : Prop :=
  ∀ (s : State) (b : Byte) (w : Word),
    resolve .implied s = ⟨none, 0, false⟩ ∧
    resolve .accumulator s = ⟨none, 0, false⟩ ∧
    resolve (.immediate b) s = ⟨none, 1, false⟩ ∧
    resolve (.memory (.zp b)) s = ⟨some (zext16 b), 1, false⟩ ∧
    resolve (.memory (.zpx b)) s = ⟨some (zext16 (b + s.x)), 1, false⟩ ∧
    resolve (.memory (.zpy b)) s = ⟨some (zext16 (b + s.y)), 1, false⟩ ∧
    resolve (.memory (.abs w)) s = ⟨some w, 2, false⟩ ∧
    resolve (.memory (.absx w)) s =
      ⟨some (w + zext16 s.x), 2, decide (256 ≤ (loByte w).toNat + s.x.toNat)⟩ ∧
    resolve (.memory (.absy w)) s =
      ⟨some (w + zext16 s.y), 2, decide (256 ≤ (loByte w).toNat + s.y.toNat)⟩ ∧
    resolve (.memory (.indx b)) s = ⟨some (s.read16Zp (b + s.x)), 1, false⟩ ∧
    resolve (.memory (.indy b)) s =
      ⟨some (s.read16Zp b + zext16 s.y), 1, decide (256 ≤ (s.readMem (zext16 b)).toNat + s.y.toNat)⟩ ∧
    resolve (.indirect w) s = ⟨some (s.read16PageWrap w), 2, false⟩ ∧
    resolve (.relative b) s =
      ⟨some (s.pc + 2#16 + b.signExtend 16), 1,
        hiByte (s.pc + 2#16) != hiByte (s.pc + 2#16 + b.signExtend 16)⟩

/-! ## Loads and stores (41_load_store.md) -/

/-- R120, R121, R122: the forms of LDA, LDX and LDY, their cycles, results and flags. -/
def Obligations.LoadsComplete : Prop :=
  ∀ (s : State) (b z : Byte) (w : Word),
    ReadForms
      [(.ldaImm b, 0xA9#8, readImm b), (.ldaZp z, 0xA5#8, readZp s z), (.ldaZpx z, 0xB5#8, readZpx s z),
       (.ldaAbs w, 0xAD#8, readAbs s w), (.ldaAbsx w, 0xBD#8, readAbsx s w), (.ldaAbsy w, 0xB9#8, readAbsy s w),
       (.ldaIndx z, 0xA1#8, readIndx s z), (.ldaIndy z, 0xB1#8, readIndy s z)]
      s (fun m => { s with a := m, p := withZN s.p m }) ∧
    ReadForms
      [(.ldxImm b, 0xA2#8, readImm b), (.ldxZp z, 0xA6#8, readZp s z), (.ldxZpy z, 0xB6#8, readZpy s z),
       (.ldxAbs w, 0xAE#8, readAbs s w), (.ldxAbsy w, 0xBE#8, readAbsy s w)]
      s (fun m => { s with x := m, p := withZN s.p m }) ∧
    ReadForms
      [(.ldyImm b, 0xA0#8, readImm b), (.ldyZp z, 0xA4#8, readZp s z), (.ldyZpx z, 0xB4#8, readZpx s z),
       (.ldyAbs w, 0xAC#8, readAbs s w), (.ldyAbsx w, 0xBC#8, readAbsx s w)]
      s (fun m => { s with y := m, p := withZN s.p m })

/-- R123, R124, R125: the forms of STA, STX and STY; no flag, no register, no other byte changes. -/
def Obligations.StoresComplete : Prop :=
  ∀ (s : State) (z : Byte) (w : Word),
    WriteForms
      [(.staZp z, 0x85#8, writeZp z 3), (.staZpx z, 0x95#8, writeZpx s z 4), (.staAbs w, 0x8D#8, writeAbs w 4),
       (.staAbsx w, 0x9D#8, writeAbsx s w 5), (.staAbsy w, 0x99#8, writeAbsy s w 5),
       (.staIndx z, 0x81#8, writeIndx s z 6), (.staIndy z, 0x91#8, writeIndy s z 6)]
      s false (fun _ => s.a) (fun _ => s.p) ∧
    WriteForms
      [(.stxZp z, 0x86#8, writeZp z 3), (.stxZpy z, 0x96#8, writeZpy s z 4), (.stxAbs w, 0x8E#8, writeAbs w 4)]
      s false (fun _ => s.x) (fun _ => s.p) ∧
    WriteForms
      [(.styZp z, 0x84#8, writeZp z 3), (.styZpx z, 0x94#8, writeZpx s z 4), (.styAbs w, 0x8C#8, writeAbs w 4)]
      s false (fun _ => s.y) (fun _ => s.p)

/-! ## Transfers and stack (42_transfer_stack.md) -/

/-- R130 to R135: the six transfers; TSX copies the Byte SP, TXS changes no flag. -/
def Obligations.TransfersComplete : Prop :=
  ∀ s : State,
    OneByte .tax 0xAA#8 2 s { s with x := s.a, p := withZN s.p s.a } [] ∧
    OneByte .tay 0xA8#8 2 s { s with y := s.a, p := withZN s.p s.a } [] ∧
    OneByte .txa 0x8A#8 2 s { s with a := s.x, p := withZN s.p s.x } [] ∧
    OneByte .tya 0x98#8 2 s { s with a := s.y, p := withZN s.p s.y } [] ∧
    OneByte .tsx 0xBA#8 2 s { s with x := s.sp, p := withZN s.p s.sp } [] ∧
    OneByte .txs 0x9A#8 2 s { s with sp := s.x } []

/-- R136, R137: PHA and PHP store one byte at 0x0100 + SP and decrement SP; no flag changes. The
bits 5 and 4 of the byte PHP pushes are the spec's decision D7. -/
def Obligations.PushesComplete : Prop :=
  ∀ s : State, ∀ f ∈ [(Instr.pha, 0x48#8, s.a), (Instr.php, 0x08#8, pImage true s.p)],
    encode f.1 = [f.2.1] ∧ busTrace f.1 s = fetchReads s 1 ++ [.write (stackSlot s 0) f.2.2] ∧
      ∃ t, exec f.1 s = .next t ∧
        t = { s with mem := t.mem, sp := s.sp - 1#8, pc := s.pc + 1#16, cyc := s.cyc + 3 } ∧
        t.readMem (stackSlot s 0) = f.2.2 ∧ ∀ a, a ≠ stackSlot s 0 → t.readMem a = s.readMem a

/-- R138, R139: PLA and PLP read the byte at 0x0100 + SP + 1 and increment SP. -/
def Obligations.PullsComplete : Prop :=
  ∀ s : State,
    OneByte .pla 0x68#8 4 s
      { s with sp := s.sp + 1#8, a := s.readMem (mkWord 0x01#8 (s.sp + 1#8)),
               p := withZN s.p (s.readMem (mkWord 0x01#8 (s.sp + 1#8))) }
      [.read (mkWord 0x01#8 (s.sp + 1#8))] ∧
    OneByte .plp 0x28#8 4 s
      { s with sp := s.sp + 1#8, p := pLoad (s.readMem (mkWord 0x01#8 (s.sp + 1#8))) s.p }
      [.read (mkWord 0x01#8 (s.sp + 1#8))]

/-! ## Logic, arithmetic, compare (43_logic_arith.md) -/

/-- R140, R141, R142: the forms of AND, ORA and EOR. -/
def Obligations.LogicCompletes : Prop :=
  ∀ (s : State) (b z : Byte) (w : Word),
    ReadForms
      [(.andImm b, 0x29#8, readImm b), (.andZp z, 0x25#8, readZp s z), (.andZpx z, 0x35#8, readZpx s z),
       (.andAbs w, 0x2D#8, readAbs s w), (.andAbsx w, 0x3D#8, readAbsx s w), (.andAbsy w, 0x39#8, readAbsy s w),
       (.andIndx z, 0x21#8, readIndx s z), (.andIndy z, 0x31#8, readIndy s z)]
      s (fun m => { s with a := s.a &&& m, p := withZN s.p (s.a &&& m) }) ∧
    ReadForms
      [(.oraImm b, 0x09#8, readImm b), (.oraZp z, 0x05#8, readZp s z), (.oraZpx z, 0x15#8, readZpx s z),
       (.oraAbs w, 0x0D#8, readAbs s w), (.oraAbsx w, 0x1D#8, readAbsx s w), (.oraAbsy w, 0x19#8, readAbsy s w),
       (.oraIndx z, 0x01#8, readIndx s z), (.oraIndy z, 0x11#8, readIndy s z)]
      s (fun m => { s with a := s.a ||| m, p := withZN s.p (s.a ||| m) }) ∧
    ReadForms
      [(.eorImm b, 0x49#8, readImm b), (.eorZp z, 0x45#8, readZp s z), (.eorZpx z, 0x55#8, readZpx s z),
       (.eorAbs w, 0x4D#8, readAbs s w), (.eorAbsx w, 0x5D#8, readAbsx s w), (.eorAbsy w, 0x59#8, readAbsy s w),
       (.eorIndx z, 0x41#8, readIndx s z), (.eorIndy z, 0x51#8, readIndy s z)]
      s (fun m => { s with a := s.a ^^^ m, p := withZN s.p (s.a ^^^ m) })

/-- R143: BIT takes Z from A and the operand, N and V from the operand. -/
def Obligations.BitTestCompletes : Prop :=
  ∀ (s : State) (z : Byte) (w : Word),
    ReadForms [(.bitZp z, 0x24#8, readZp s z), (.bitAbs w, 0x2C#8, readAbs s w)]
      s (fun m => { s with p := { s.p with z := decide (s.a &&& m = 0#8), n := m.getLsbD 7, v := m.getLsbD 6 } })

/-- R144: the forms of ADC; D selects the arithmetic of R145 or R146; A and the four flags take its result. With D = 1
the NMOS arithmetic is the spec's decision D2 and the model's choice (log entry 7). -/
def Obligations.AddCompletes : Prop :=
  ∀ (s : State) (b z : Byte) (w : Word),
    ReadForms
      [(.adcImm b, 0x69#8, readImm b), (.adcZp z, 0x65#8, readZp s z), (.adcZpx z, 0x75#8, readZpx s z),
       (.adcAbs w, 0x6D#8, readAbs s w), (.adcAbsx w, 0x7D#8, readAbsx s w), (.adcAbsy w, 0x79#8, readAbsy s w),
       (.adcIndx z, 0x61#8, readIndx s z), (.adcIndy z, 0x71#8, readIndy s z)]
      s (fun m =>
        let u := if s.p.d = false then adcBin s.a m s.p.c else bcdAdc s.a m s.p.c
        { s with a := u.r, p := { s.p with c := u.c, v := u.v, z := u.z, n := u.n } })

/-- R145: the binary sum on integers; V is set exactly when the signed sum lies outside -128 to +127. -/
def Obligations.BinaryAddArithmetic : Prop :=
  ∀ (a m : Byte) (c : Bool),
    (adcBin a m c).r.toNat = (a.toNat + m.toNat + c.toNat) % 256 ∧
    ((adcBin a m c).c = true ↔ 256 ≤ a.toNat + m.toNat + c.toNat) ∧
    (adcBin a m c).v = ((a ^^^ (adcBin a m c).r) &&& (m ^^^ (adcBin a m c).r)).getLsbD 7 ∧
    ((adcBin a m c).v = true ↔ (a.toInt + m.toInt + c.toNat < -128 ∨ 127 < a.toInt + m.toInt + c.toNat)) ∧
    ((adcBin a m c).z = true ↔ (adcBin a m c).r = 0#8) ∧ (adcBin a m c).n = (adcBin a m c).r.getLsbD 7

/-- R146: the sum by decimal digits with its adjustments, for all bytes, and the four flags it gives; for valid BCD
operands it is the decimal sum and its carry. The choice of the NMOS arithmetic is the spec's decision D2 and the
model's log entry 7. -/
def Obligations.DecimalAddArithmetic : Prop :=
  ∀ (a m : Byte) (c : Bool),
    let low := (a &&& 0x0F#8).toNat + (m &&& 0x0F#8).toNat + c.toNat
    let digit := if low < 0x0A then low else (low + 0x06) % 0x10 + 0x10
    let sum := (a &&& 0xF0#8).toNat + (m &&& 0xF0#8).toNat + digit
    let adjusted := if sum < 0xA0 then sum else sum + 0x60
    let u := bcdAdc a m c
    u.r.toNat = adjusted % 256 ∧ (u.c = true ↔ 0x100 ≤ adjusted) ∧ u.n = sum.testBit 7 ∧
    u.v = ((a ^^^ BitVec.ofNat 8 sum) &&& (m ^^^ BitVec.ofNat 8 sum)).getLsbD 7 ∧
    (u.z = true ↔ (a.toNat + m.toNat + c.toNat) % 256 = 0) ∧
    (validBcd a → validBcd m → validBcd u.r ∧ decimal u.r = (decimal a + decimal m + c.toNat) % 100 ∧
      (u.c = true ↔ 100 ≤ decimal a + decimal m + c.toNat))

/-- R147: the forms of SBC; the flags are those of the binary difference in both modes, the result byte is the binary
one or that of R148. With D = 1 the NMOS result byte is the spec's decision D2 and the model's choice (log entry 7). -/
def Obligations.SubtractCompletes : Prop :=
  ∀ (s : State) (b z : Byte) (w : Word),
    ReadForms
      [(.sbcImm b, 0xE9#8, readImm b), (.sbcZp z, 0xE5#8, readZp s z), (.sbcZpx z, 0xF5#8, readZpx s z),
       (.sbcAbs w, 0xED#8, readAbs s w), (.sbcAbsx w, 0xFD#8, readAbsx s w), (.sbcAbsy w, 0xF9#8, readAbsy s w),
       (.sbcIndx z, 0xE1#8, readIndx s z), (.sbcIndy z, 0xF1#8, readIndy s z)]
      s (fun m =>
        let u := adcBin s.a (m ^^^ 0xFF#8) s.p.c
        { s with a := if s.p.d = false then u.r else bcdSbc s.a m s.p.c,
                 p := { s.p with c := u.c, v := u.v, z := u.z, n := u.n } })

/-- R147: the binary difference on integers, with the inverted borrow. -/
def Obligations.BinarySubtractArithmetic : Prop :=
  ∀ (a m : Byte) (c : Bool),
    let u := adcBin a (m ^^^ 0xFF#8) c
    let d : Int := (a.toNat : Int) - m.toNat - (1 - c.toNat)
    (u.r.toNat : Int) = d % 256 ∧ (u.c = true ↔ 0 ≤ d) ∧
    u.v = ((a ^^^ m) &&& (a ^^^ u.r)).getLsbD 7 ∧
    (u.v = true ↔ (a.toInt - m.toInt - (1 - c.toNat) < -128 ∨ 127 < a.toInt - m.toInt - (1 - c.toNat))) ∧
    (u.z = true ↔ u.r = 0#8) ∧ u.n = u.r.getLsbD 7

/-- R148: the difference by decimal digits with its adjustments, for all bytes; for valid BCD operands it is the
decimal difference modulo 100, and the binary carry is 1 exactly when no decimal borrow occurred. The choice of the
NMOS arithmetic is the spec's decision D2 and the model's log entry 7. -/
def Obligations.DecimalSubtractArithmetic : Prop :=
  ∀ (a m : Byte) (c : Bool),
    let low : Int := ((a &&& 0x0F#8).toNat : Int) - (m &&& 0x0F#8).toNat + c.toNat - 1
    let digit : Int := if 0 ≤ low then low else (low - 0x06) % 16 - 0x10
    let diff : Int := ((a &&& 0xF0#8).toNat : Int) - (m &&& 0xF0#8).toNat + digit
    let adjusted : Int := if 0 ≤ diff then diff else diff - 0x60
    ((bcdSbc a m c).toNat : Int) = adjusted % 256 ∧
    (validBcd a → validBcd m → validBcd (bcdSbc a m c) ∧
      (decimal (bcdSbc a m c) : Int) = ((decimal a : Int) - decimal m - (1 - c.toNat)) % 100 ∧
      ((adcBin a (m ^^^ 0xFF#8) c).c = true ↔ 0 ≤ (decimal a : Int) - decimal m - (1 - c.toNat)))

/-- R149 to R152: the forms of CMP, CPX and CPY: C is the unsigned order, Z equality, N bit 7 of the difference;
nothing else changes. -/
def Obligations.ComparesComplete : Prop :=
  ∀ (s : State) (b z : Byte) (w : Word),
    let after (r m : Byte) : State :=
      { s with p := { s.p with c := decide (m.toNat ≤ r.toNat), z := decide (r = m), n := (r - m).getLsbD 7 } }
    ReadForms
      [(.cmpImm b, 0xC9#8, readImm b), (.cmpZp z, 0xC5#8, readZp s z), (.cmpZpx z, 0xD5#8, readZpx s z),
       (.cmpAbs w, 0xCD#8, readAbs s w), (.cmpAbsx w, 0xDD#8, readAbsx s w), (.cmpAbsy w, 0xD9#8, readAbsy s w),
       (.cmpIndx z, 0xC1#8, readIndx s z), (.cmpIndy z, 0xD1#8, readIndy s z)] s (after s.a) ∧
    ReadForms
      [(.cpxImm b, 0xE0#8, readImm b), (.cpxZp z, 0xE4#8, readZp s z), (.cpxAbs w, 0xEC#8, readAbs s w)]
      s (after s.x) ∧
    ReadForms
      [(.cpyImm b, 0xC0#8, readImm b), (.cpyZp z, 0xC4#8, readZp s z), (.cpyAbs w, 0xCC#8, readAbs s w)]
      s (after s.y)

/-! ## Increments, decrements, shifts and rotates (44_incdec_shift.md) -/

/-- R160 to R165: INC and DEC on memory, INX, INY, DEX and DEY; C and V stay. -/
def Obligations.IncrementsComplete : Prop :=
  ∀ (s : State) (z : Byte) (w : Word),
    WriteForms
      [(.incZp z, 0xE6#8, writeZp z 5), (.incZpx z, 0xF6#8, writeZpx s z 6), (.incAbs w, 0xEE#8, writeAbs w 6),
       (.incAbsx w, 0xFE#8, writeAbsx s w 7)] s true (fun m => m + 1#8) (fun m => withZN s.p (m + 1#8)) ∧
    WriteForms
      [(.decZp z, 0xC6#8, writeZp z 5), (.decZpx z, 0xD6#8, writeZpx s z 6), (.decAbs w, 0xCE#8, writeAbs w 6),
       (.decAbsx w, 0xDE#8, writeAbsx s w 7)] s true (fun m => m - 1#8) (fun m => withZN s.p (m - 1#8)) ∧
    OneByte .inx 0xE8#8 2 s { s with x := s.x + 1#8, p := withZN s.p (s.x + 1#8) } [] ∧
    OneByte .iny 0xC8#8 2 s { s with y := s.y + 1#8, p := withZN s.p (s.y + 1#8) } [] ∧
    OneByte .dex 0xCA#8 2 s { s with x := s.x - 1#8, p := withZN s.p (s.x - 1#8) } [] ∧
    OneByte .dey 0x88#8 2 s { s with y := s.y - 1#8, p := withZN s.p (s.y - 1#8) } []

/-- R166, R167: the forms of ASL and LSR. -/
def Obligations.ShiftsComplete : Prop :=
  ∀ (s : State) (z : Byte) (w : Word),
    let asl (m : Byte) : Status := { withZN s.p (m <<< 1) with c := m.getLsbD 7 }
    let lsr (m : Byte) : Status := { s.p with z := decide (m >>> 1 = 0#8), n := false, c := m.getLsbD 0 }
    WriteForms
      [(.aslZp z, 0x06#8, writeZp z 5), (.aslZpx z, 0x16#8, writeZpx s z 6), (.aslAbs w, 0x0E#8, writeAbs w 6),
       (.aslAbsx w, 0x1E#8, writeAbsx s w 7)] s true (fun m => m <<< 1) asl ∧
    OneByte .aslAcc 0x0A#8 2 s { s with a := s.a <<< 1, p := asl s.a } [] ∧
    WriteForms
      [(.lsrZp z, 0x46#8, writeZp z 5), (.lsrZpx z, 0x56#8, writeZpx s z 6), (.lsrAbs w, 0x4E#8, writeAbs w 6),
       (.lsrAbsx w, 0x5E#8, writeAbsx s w 7)] s true (fun m => m >>> 1) lsr ∧
    OneByte .lsrAcc 0x4A#8 2 s { s with a := s.a >>> 1, p := lsr s.a } []

/-- R168, R169: the forms of ROL and ROR, as rotations of the nine bits C and m. -/
def Obligations.RotatesComplete : Prop :=
  ∀ (s : State) (z : Byte) (w : Word),
    let left (m : Byte) : Byte := BitVec.ofNat 8 (2 * m.toNat + s.p.c.toNat)
    let right (m : Byte) : Byte := BitVec.ofNat 8 (m.toNat / 2 + 128 * s.p.c.toNat)
    let rol (m : Byte) : Status := { withZN s.p (left m) with c := m.getLsbD 7 }
    let ror (m : Byte) : Status := { s.p with z := decide (right m = 0#8), n := s.p.c, c := m.getLsbD 0 }
    WriteForms
      [(.rolZp z, 0x26#8, writeZp z 5), (.rolZpx z, 0x36#8, writeZpx s z 6), (.rolAbs w, 0x2E#8, writeAbs w 6),
       (.rolAbsx w, 0x3E#8, writeAbsx s w 7)] s true left rol ∧
    OneByte .rolAcc 0x2A#8 2 s { s with a := left s.a, p := rol s.a } [] ∧
    WriteForms
      [(.rorZp z, 0x66#8, writeZp z 5), (.rorZpx z, 0x76#8, writeZpx s z 6), (.rorAbs w, 0x6E#8, writeAbs w 6),
       (.rorAbsx w, 0x7E#8, writeAbsx s w 7)] s true right ror ∧
    OneByte .rorAcc 0x6A#8 2 s { s with a := right s.a, p := ror s.a } []

/-! ## Jumps, calls, branches (45_control_flow.md) -/

/-- R170: JMP to the operand, or to the pointer's content with the page-boundary bug. -/
def Obligations.JumpsComplete : Prop :=
  ∀ (s : State) (w : Word),
    encode (.jmpAbs w) = [0x4C#8, loByte w, hiByte w] ∧
    exec (.jmpAbs w) s = .next { s with pc := w, cyc := s.cyc + 3 } ∧
    busTrace (.jmpAbs w) s = fetchReads s 3 ∧
    encode (.jmpInd w) = [0x6C#8, loByte w, hiByte w] ∧
    exec (.jmpInd w) s = .next { s with
      pc := mkWord (s.readMem (mkWord (hiByte w) (loByte w + 1#8))) (s.readMem w), cyc := s.cyc + 5 } ∧
    busTrace (.jmpInd w) s = fetchReads s 3 ++ [.read w, .read (mkWord (hiByte w) (loByte w + 1#8))]

/-- R172, R173: JSR pushes the address of its own last byte, high byte first; RTS pulls low, then high, and adds
one. -/
def Obligations.CallAndReturnComplete : Prop :=
  ∀ (s : State) (w : Word),
    (encode (.jsr w) = [0x20#8, loByte w, hiByte w] ∧
      busTrace (.jsr w) s = fetchReads s 3 ++
        [.write (stackSlot s 0) (hiByte (s.pc + 2#16)), .write (stackSlot s 1) (loByte (s.pc + 2#16))] ∧
      ∃ t, exec (.jsr w) s = .next t ∧
        t = { s with mem := t.mem, sp := s.sp - 2#8, pc := w, cyc := s.cyc + 6 } ∧
        t.readMem (stackSlot s 0) = hiByte (s.pc + 2#16) ∧ t.readMem (stackSlot s 1) = loByte (s.pc + 2#16) ∧
        ∀ a, a ≠ stackSlot s 0 → a ≠ stackSlot s 1 → t.readMem a = s.readMem a) ∧
    busTrace .rts s = fetchReads s 1 ++
      [.read (mkWord 0x01#8 (s.sp + 1#8)), .read (mkWord 0x01#8 (s.sp + 2#8))] ∧
    encode .rts = [0x60#8] ∧
    exec .rts s = .next { s with
      sp := s.sp + 2#8, cyc := s.cyc + 6,
      pc := mkWord (s.readMem (mkWord 0x01#8 (s.sp + 2#8))) (s.readMem (mkWord 0x01#8 (s.sp + 1#8))) + 1#16 }

/-- R172, R173: an RTS right after a JSR goes on at the instruction after the JSR with the old SP, and every register
and flag as before. -/
def Obligations.ReturnAfterCall : Prop :=
  ∀ (s t : State) (w : Word), exec (.jsr w) s = .next t →
    exec .rts t = .next { s with mem := t.mem, pc := s.pc + 3#16, cyc := s.cyc + 12 }

/-- R174 to R182: the eight branches: opcode, condition, target, the three possible costs; nothing else changes. -/
def Obligations.BranchesComplete : Prop :=
  ∀ (s : State) (d : Byte),
    ∀ f ∈ [(Instr.bcc d, 0x90#8, s.p.c = false), (Instr.bcs d, 0xB0#8, s.p.c = true),
           (Instr.beq d, 0xF0#8, s.p.z = true), (Instr.bne d, 0xD0#8, s.p.z = false),
           (Instr.bmi d, 0x30#8, s.p.n = true), (Instr.bpl d, 0x10#8, s.p.n = false),
           (Instr.bvc d, 0x50#8, s.p.v = false), (Instr.bvs d, 0x70#8, s.p.v = true)],
      let next := s.pc + 2#16
      let target := next + d.signExtend 16
      encode f.1 = [f.2.1, d] ∧ busTrace f.1 s = fetchReads s 2 ∧
      (f.2.2 → exec f.1 s = .next { s with pc := target, cyc := s.cyc + (3 + pageCost next target) }) ∧
      (¬ f.2.2 → exec f.1 s = .next { s with pc := next, cyc := s.cyc + 2 })

/-! ## Flags, NOP, BRK, RTI (46_flags_system.md) -/

/-- R190 to R197: the flag instructions write one flag, NOP writes nothing. -/
def Obligations.FlagInstructionsComplete : Prop :=
  ∀ s : State,
    OneByte .clc 0x18#8 2 s { s with p := { s.p with c := false } } [] ∧
    OneByte .sec 0x38#8 2 s { s with p := { s.p with c := true } } [] ∧
    OneByte .cli 0x58#8 2 s { s with p := { s.p with i := false } } [] ∧
    OneByte .sei 0x78#8 2 s { s with p := { s.p with i := true } } [] ∧
    OneByte .cld 0xD8#8 2 s { s with p := { s.p with d := false } } [] ∧
    OneByte .sed 0xF8#8 2 s { s with p := { s.p with d := true } } [] ∧
    OneByte .clv 0xB8#8 2 s { s with p := { s.p with v := false } } [] ∧
    OneByte .nop 0xEA#8 2 s s []

/-- R198: BRK is the entry with return address PC + 2, B set in the pushed byte, and the IRQ vector, whatever I
is. The return address is the spec's decision D20. -/
def Obligations.BreakCompletes : Prop :=
  ∀ s : State, encode .brk = [0x00#8] ∧
    busTrace .brk s = fetchReads s 1 ++ entryTransactions s 0xFFFE#16 0xFFFF#16 (s.pc + 2#16) true ∧
    ∃ t, exec .brk s = .next t ∧ t.nmiPending = s.nmiPending ∧
      EntryEffect s t 0xFFFE#16 0xFFFF#16 (s.pc + 2#16) true 7

/-- R199: RTI pulls the status, then the address low byte, then the high byte. -/
def Obligations.ReturnFromInterruptCompletes : Prop :=
  ∀ s : State, encode .rti = [0x40#8] ∧
    busTrace .rti s = fetchReads s 1 ++ [.read (mkWord 0x01#8 (s.sp + 1#8)),
      .read (mkWord 0x01#8 (s.sp + 2#8)), .read (mkWord 0x01#8 (s.sp + 3#8))] ∧
    exec .rti s = .next { s with
      sp := s.sp + 3#8, p := pLoad (s.readMem (mkWord 0x01#8 (s.sp + 1#8))) s.p, cyc := s.cyc + 6,
      pc := mkWord (s.readMem (mkWord 0x01#8 (s.sp + 3#8))) (s.readMem (mkWord 0x01#8 (s.sp + 2#8))) }

/-- R223: an RTI right after an NMI or IRQ entry resumes at the instruction that was about to be fetched, with every
flag and SP as they were; right after BRK it resumes at the BRK's address plus 2. -/
def Obligations.ReturnAfterEntry : Prop :=
  (∀ s t : State, (s.nmiPending = true ∨ (s.irqLine = true ∧ s.p.i = false)) → step s = .next t →
    exec .rti t = .next { s with mem := t.mem, nmiPending := false, cyc := s.cyc + 13 }) ∧
  ∀ s t : State, exec .brk s = .next t →
    exec .rti t = .next { s with mem := t.mem, pc := s.pc + 2#16, cyc := s.cyc + 13 }

/-! ## The host's calls (60_exceptions.md) -/

/-- R38, R234, R235: what the host reads and writes between steps; a read changes nothing; `execute` leaves the IRQ
line as it is and never raises an NMI request (the spec derives this last from R230 and R11). The shape of the calls
(log entry 9), the stored B they read and write (log entry 5: R29 lets a model leave it out) and the line held as a
field (log entry 3) are the model's choice. -/
def Obligations.HostCallsTakeEffect : Prop :=
  ∀ (s : State) (v : Byte) (w : Word) (bit : Bool),
    (hostCall (.readReg .a) s = (s, .byte s.a) ∧ hostCall (.readReg .x) s = (s, .byte s.x) ∧
      hostCall (.readReg .y) s = (s, .byte s.y) ∧ hostCall .readPc s = (s, .word s.pc) ∧
      hostCall .readStackPointer s = (s, .word (0x0100#16 + zext16 s.sp)) ∧
      hostCall .readCycles s = (s, .cycles s.cyc) ∧ hostCall (.readMem w) s = (s, .byte (s.readMem w))) ∧
    (hostCall (.readFlag .n) s = (s, .bit s.p.n) ∧ hostCall (.readFlag .v) s = (s, .bit s.p.v) ∧
      hostCall (.readFlag .b) s = (s, .bit s.p.b) ∧ hostCall (.readFlag .d) s = (s, .bit s.p.d) ∧
      hostCall (.readFlag .i) s = (s, .bit s.p.i) ∧ hostCall (.readFlag .z) s = (s, .bit s.p.z) ∧
      hostCall (.readFlag .c) s = (s, .bit s.p.c)) ∧
    (hostCall (.writeReg .a v) s = ({ s with a := v }, .nothing) ∧
      hostCall (.writeReg .x v) s = ({ s with x := v }, .nothing) ∧
      hostCall (.writeReg .y v) s = ({ s with y := v }, .nothing) ∧
      hostCall (.writeSp v) s = ({ s with sp := v }, .nothing) ∧
      hostCall (.writePc w) s = ({ s with pc := w }, .nothing) ∧
      hostCall (.writeMem w v) s = (s.writeMem w v, .nothing)) ∧
    (hostCall (.writeFlag .n bit) s = ({ s with p := { s.p with n := bit } }, .nothing) ∧
      hostCall (.writeFlag .v bit) s = ({ s with p := { s.p with v := bit } }, .nothing) ∧
      hostCall (.writeFlag .b bit) s = ({ s with p := { s.p with b := bit } }, .nothing) ∧
      hostCall (.writeFlag .d bit) s = ({ s with p := { s.p with d := bit } }, .nothing) ∧
      hostCall (.writeFlag .i bit) s = ({ s with p := { s.p with i := bit } }, .nothing) ∧
      hostCall (.writeFlag .z bit) s = ({ s with p := { s.p with z := bit } }, .nothing) ∧
      hostCall (.writeFlag .c bit) s = ({ s with p := { s.p with c := bit } }, .nothing)) ∧
    hostCall .raiseNmi s = ({ s with nmiPending := true }, .nothing) ∧
    hostCall (.setIrq bit) s = ({ s with irqLine := bit }, .nothing) ∧
    ∀ budget : Int, (execute budget s).state.irqLine = s.irqLine ∧
      ((execute budget s).state.nmiPending = true → s.nmiPending = true)

/-- R232: a budget that is not positive runs nothing and changes nothing. -/
def Obligations.NonPositiveBudgetRunsNothing : Prop :=
  ∀ (budget : Int) (s : State), budget ≤ 0 → execute budget s = { state := s, used := 0, stop := none }

/-- R231, R233: `execute` runs one step, then goes on with what is left of the budget, and adds the two costs; a step
that faults ends it with the fault and no cycles of that step. The shape of the result is log entry 9. -/
def Obligations.ExecuteRunsStepAfterStep : Prop :=
  ∀ (budget : Int) (s : State), 0 < budget →
    (∀ t, step s = .next t →
      let cost := t.cyc - s.cyc
      let rest := execute (budget - cost) t
      execute budget s = { state := rest.state, used := cost + rest.used, stop := rest.stop }) ∧
    ∀ f, step s = .fault f → execute budget s = { state := s, used := 0, stop := some (.fault f) }

/-- R231: `execute` never under-executes and overshoots by at most 6; CYC grows by the amount returned; a budget of 1
or 2 runs exactly one step. The shape of the result is log entry 9. -/
def Obligations.ExecuteMeetsItsBudget : Prop :=
  ∀ (budget : Int) (s : State), 0 < budget →
    let out := execute budget s
    (out.stop = none → budget ≤ out.used ∧ (out.used : Int) ≤ budget + 6) ∧ out.state.cyc = s.cyc + out.used ∧
      ∀ t, budget ≤ 2 → step s = .next t → out = { state := t, used := t.cyc - s.cyc, stop := none }

/-- R233: when a step inside `execute` faults, the call ends there: the fault is the one the step from the returned
state raises, and the completed steps' cycles are below the budget. The shape of the result is log
entry 9. -/
def Obligations.ExecuteEndsAtTheFault : Prop :=
  ∀ (budget : Int) (s : State) (x : Stop),
    let out := execute budget s
    out.stop = some x → ∃ f, x = .fault f ∧ step out.state = .fault f ∧ (out.used : Int) < budget ∧
      out.state.cyc = s.cyc + out.used
end

