-- ==== Sys2Proof/Laws/Bits.lean ====
section
/-! SUPPORT. The byte-order and page helpers, by their values as natural numbers. -/

namespace Sys2Proof.Machine

/-! ## Values -/

theorem mkWord_toNat (h l : Byte) : (mkWord h l).toNat = 256 * h.toNat + l.toNat := by
  have e : (mkWord h l).toNat = h.toNat <<< 8 ||| l.toNat := BitVec.toNat_append h l
  rw [e, ← Nat.shiftLeft_add_eq_or_of_lt l.isLt, Nat.shiftLeft_eq]
  omega

theorem hiByte_toNat (w : Word) : (hiByte w).toNat = w.toNat / 256 := by
  have := w.isLt
  simp [hiByte, BitVec.extractLsb'_toNat, Nat.shiftRight_eq_div_pow]; omega

theorem loByte_toNat (w : Word) : (loByte w).toNat = w.toNat % 256 := by
  simp [loByte, BitVec.extractLsb'_toNat]

theorem zext16_toNat (v : Byte) : (zext16 v).toNat = v.toNat := by
  have := v.isLt
  simp only [zext16, BitVec.toNat_setWidth]; omega

/-! ## Taking a Word apart and putting it together (R8) -/

@[simp] theorem hiByte_mkWord (h l : Byte) : hiByte (mkWord h l) = h := by
  apply BitVec.eq_of_toNat_eq
  rw [hiByte_toNat, mkWord_toNat]; omega

@[simp] theorem loByte_mkWord (h l : Byte) : loByte (mkWord h l) = l := by
  apply BitVec.eq_of_toNat_eq
  rw [loByte_toNat, mkWord_toNat]; omega

@[simp] theorem mkWord_hiByte_loByte (w : Word) : mkWord (hiByte w) (loByte w) = w := by
  apply BitVec.eq_of_toNat_eq
  rw [mkWord_toNat, hiByte_toNat, loByte_toNat]; omega

/-- Words are equal exactly when both their bytes are. -/
theorem mkWord_inj {h l h' l' : Byte} : mkWord h l = mkWord h' l' ↔ h = h' ∧ l = l' := by
  constructor
  · intro e
    exact ⟨by simpa using congrArg hiByte e, by simpa using congrArg loByte e⟩
  · rintro ⟨rfl, rfl⟩; rfl

/-! ## Pages (R8, R108) -/

theorem crossed_iff (a b : Word) : crossed a b = true ↔ a.toNat / 256 ≠ b.toNat / 256 := by
  simp only [crossed, page, bne_iff_ne, ne_eq, ← hiByte_toNat, BitVec.toNat_inj]

@[simp] theorem crossed_self (a : Word) : crossed a a = false := by simp [crossed]

/-- Adding an unsigned index leaves the page exactly when the low byte carries. -/
theorem crossed_add_index (w : Word) (i : Byte) :
    crossed w (w + zext16 i) = decide (256 ≤ (loByte w).toNat + i.toNat) := by
  rw [Bool.eq_iff_iff, crossed_iff, decide_eq_true_iff, BitVec.toNat_add, zext16_toNat, loByte_toNat]
  have := w.isLt; have := i.isLt
  omega

end Sys2Proof.Machine
end

