-- ==== Sys2Proof/Laws/Decode.lean ====
section
/-! SUPPORT. The table lookup, the decoder by its cases, and the encoder's shapes. -/

namespace Sys2Proof

open Sys2Proof.Machine

/-! ## The decoder by the entry of the first byte (R83) -/

theorem decode_undefined {op : Byte} (rest : List Byte) (h : opcodeEntry op = .undefined) :
    decode (op :: rest) = .ok (.undefined op, rest) := by simp [decode, h]

theorem decode_implied {op : Byte} (rest : List Byte) {i : Instr} {c : Nat} (h : opcodeEntry op = .implied i c) :
    decode (op :: rest) = .ok (i, rest) := by simp [decode, h]

theorem decode_byte {op : Byte} (b1 : Byte) (rest : List Byte) {k : Byte → Instr} {c : Nat} {p : Penalty}
    (h : opcodeEntry op = .byte k c p) : decode (op :: b1 :: rest) = .ok (k b1, rest) := by simp [decode, h]

theorem decode_word {op : Byte} (b1 b2 : Byte) (rest : List Byte) {k : Word → Instr} {c : Nat} {p : Penalty}
    (h : opcodeEntry op = .word k c p) : decode (op :: b1 :: b2 :: rest) = .ok (k (mkWord b2 b1), rest) := by
  simp [decode, h]

/-- Everything a successful decoding can be. -/
theorem decode_cases {bytes rest : List Byte} {i : Instr} (h : decode bytes = .ok (i, rest)) :
    ∃ op tail, bytes = op :: tail ∧
      ((opcodeEntry op = .undefined ∧ i = .undefined op ∧ rest = tail) ∨
       (∃ c, opcodeEntry op = .implied i c ∧ rest = tail) ∨
       (∃ k c p b1, opcodeEntry op = .byte k c p ∧ tail = b1 :: rest ∧ i = k b1) ∨
       (∃ k c p b1 b2, opcodeEntry op = .word k c p ∧ tail = b1 :: b2 :: rest ∧ i = k (mkWord b2 b1))) := by
  cases bytes with
  | nil => simp [decode] at h
  | cons op tail =>
    refine ⟨op, tail, rfl, ?_⟩
    simp only [decode] at h
    split at h
    · rename_i e
      simp only [Except.ok.injEq, Prod.mk.injEq] at h
      exact .inl ⟨e, h.1.symm, h.2.symm⟩
    · rename_i i' c e
      simp only [Except.ok.injEq, Prod.mk.injEq] at h
      exact .inr (.inl ⟨c, h.1 ▸ e, h.2.symm⟩)
    · rename_i k c p e
      split at h
      · rename_i b1 tail
        simp only [Except.ok.injEq, Prod.mk.injEq] at h
        exact .inr (.inr (.inl ⟨k, c, p, b1, e, by rw [h.2], h.1.symm⟩))
      · cases h
    · rename_i k c p e
      split at h
      · rename_i b1 b2 tail
        simp only [Except.ok.injEq, Prod.mk.injEq] at h
        exact .inr (.inr (.inr ⟨k, c, p, b1, b2, e, by rw [h.2], h.1.symm⟩))
      · cases h

/-- An entry's instruction is what the decoder reads from the opcode and two bytes. -/
theorem decode_three (op b1 b2 : Byte) :
    ∃ rest, decode [op, b1, b2] = .ok ((opcodeEntry op).instr op b1 b2, rest) := by
  cases h : opcodeEntry op with
  | undefined => exact ⟨_, decode_undefined _ h⟩
  | implied i c => exact ⟨_, decode_implied _ h⟩
  | byte k c p => exact ⟨_, decode_byte _ _ h⟩
  | word k c p => exact ⟨_, decode_word _ _ _ h⟩

/-! ## The encoder -/

@[simp] theorem enc2_length (op b : Byte) : (enc2 op b).length = 2 := rfl
@[simp] theorem enc3_length (op : Byte) (w : Word) : (enc3 op w).length = 3 := rfl

end Sys2Proof
end

