-- ==== Sys2Proof/Laws/State.lean ====
section
/-! SUPPORT. One lemma for each field of each update of State and of Status, so that no proof unfolds a record. -/

namespace Sys2Proof.Machine

/-- States that agree in every field are equal. -/
theorem State.eq_of_fields {s t : State} (ha : s.a = t.a) (hx : s.x = t.x) (hy : s.y = t.y) (hsp : s.sp = t.sp)
    (hpc : s.pc = t.pc) (hp : s.p = t.p) (hm : s.mem = t.mem) (hc : s.cyc = t.cyc)
    (hn : s.nmiPending = t.nmiPending) (hi : s.irqLine = t.irqLine) : s = t := by
  cases s; cases t; simp_all

/-! ## Memory and stack -/

@[simp] theorem State.writeMem_a (s : State) (a : Word) (v : Byte) : (s.writeMem a v).a = s.a := rfl
@[simp] theorem State.writeMem_x (s : State) (a : Word) (v : Byte) : (s.writeMem a v).x = s.x := rfl
@[simp] theorem State.writeMem_y (s : State) (a : Word) (v : Byte) : (s.writeMem a v).y = s.y := rfl
@[simp] theorem State.writeMem_sp (s : State) (a : Word) (v : Byte) : (s.writeMem a v).sp = s.sp := rfl
@[simp] theorem State.writeMem_pc (s : State) (a : Word) (v : Byte) : (s.writeMem a v).pc = s.pc := rfl
@[simp] theorem State.writeMem_p (s : State) (a : Word) (v : Byte) : (s.writeMem a v).p = s.p := rfl
@[simp] theorem State.writeMem_cyc (s : State) (a : Word) (v : Byte) : (s.writeMem a v).cyc = s.cyc := rfl
@[simp] theorem State.writeMem_nmiPending (s : State) (a : Word) (v : Byte) : (s.writeMem a v).nmiPending = s.nmiPending := rfl
@[simp] theorem State.writeMem_irqLine (s : State) (a : Word) (v : Byte) : (s.writeMem a v).irqLine = s.irqLine := rfl
@[simp] theorem State.writeMem_mem (s : State) (a : Word) (v : Byte) : (s.writeMem a v).mem = Memory.write s.mem a.toNat v := rfl

@[simp] theorem State.push_a (s : State) (v : Byte) : (s.push v).a = s.a := rfl
@[simp] theorem State.push_x (s : State) (v : Byte) : (s.push v).x = s.x := rfl
@[simp] theorem State.push_y (s : State) (v : Byte) : (s.push v).y = s.y := rfl
@[simp] theorem State.push_pc (s : State) (v : Byte) : (s.push v).pc = s.pc := rfl
@[simp] theorem State.push_p (s : State) (v : Byte) : (s.push v).p = s.p := rfl
@[simp] theorem State.push_cyc (s : State) (v : Byte) : (s.push v).cyc = s.cyc := rfl
@[simp] theorem State.push_nmiPending (s : State) (v : Byte) : (s.push v).nmiPending = s.nmiPending := rfl
@[simp] theorem State.push_irqLine (s : State) (v : Byte) : (s.push v).irqLine = s.irqLine := rfl
@[simp] theorem State.push_sp (s : State) (v : Byte) : (s.push v).sp = s.sp - 1#8 := rfl
@[simp] theorem State.push_mem (s : State) (v : Byte) : (s.push v).mem = Memory.write s.mem s.stackAddr.toNat v := rfl

@[simp] theorem State.pushWord_a (s : State) (w : Word) : (s.pushWord w).a = s.a := rfl
@[simp] theorem State.pushWord_x (s : State) (w : Word) : (s.pushWord w).x = s.x := rfl
@[simp] theorem State.pushWord_y (s : State) (w : Word) : (s.pushWord w).y = s.y := rfl
@[simp] theorem State.pushWord_pc (s : State) (w : Word) : (s.pushWord w).pc = s.pc := rfl
@[simp] theorem State.pushWord_p (s : State) (w : Word) : (s.pushWord w).p = s.p := rfl
@[simp] theorem State.pushWord_cyc (s : State) (w : Word) : (s.pushWord w).cyc = s.cyc := rfl
@[simp] theorem State.pushWord_nmiPending (s : State) (w : Word) : (s.pushWord w).nmiPending = s.nmiPending := rfl
@[simp] theorem State.pushWord_irqLine (s : State) (w : Word) : (s.pushWord w).irqLine = s.irqLine := rfl
@[simp] theorem State.pushWord_sp (s : State) (w : Word) : (s.pushWord w).sp = s.sp - 1#8 - 1#8 := rfl

@[simp] theorem State.pulled_a (s : State) : (s.pulled).a = s.a := rfl
@[simp] theorem State.pulled_x (s : State) : (s.pulled).x = s.x := rfl
@[simp] theorem State.pulled_y (s : State) : (s.pulled).y = s.y := rfl
@[simp] theorem State.pulled_pc (s : State) : (s.pulled).pc = s.pc := rfl
@[simp] theorem State.pulled_p (s : State) : (s.pulled).p = s.p := rfl
@[simp] theorem State.pulled_mem (s : State) : (s.pulled).mem = s.mem := rfl
@[simp] theorem State.pulled_cyc (s : State) : (s.pulled).cyc = s.cyc := rfl
@[simp] theorem State.pulled_nmiPending (s : State) : (s.pulled).nmiPending = s.nmiPending := rfl
@[simp] theorem State.pulled_irqLine (s : State) : (s.pulled).irqLine = s.irqLine := rfl
@[simp] theorem State.pulled_sp (s : State) : (s.pulled).sp = s.sp + 1#8 := rfl

/-! ## The end of an instruction -/

@[simp] theorem State.advance_a (s : State) (len cycles : Nat) : (s.advance len cycles).a = s.a := rfl
@[simp] theorem State.advance_x (s : State) (len cycles : Nat) : (s.advance len cycles).x = s.x := rfl
@[simp] theorem State.advance_y (s : State) (len cycles : Nat) : (s.advance len cycles).y = s.y := rfl
@[simp] theorem State.advance_sp (s : State) (len cycles : Nat) : (s.advance len cycles).sp = s.sp := rfl
@[simp] theorem State.advance_p (s : State) (len cycles : Nat) : (s.advance len cycles).p = s.p := rfl
@[simp] theorem State.advance_mem (s : State) (len cycles : Nat) : (s.advance len cycles).mem = s.mem := rfl
@[simp] theorem State.advance_nmiPending (s : State) (len cycles : Nat) : (s.advance len cycles).nmiPending = s.nmiPending := rfl
@[simp] theorem State.advance_irqLine (s : State) (len cycles : Nat) : (s.advance len cycles).irqLine = s.irqLine := rfl
@[simp] theorem State.advance_pc (s : State) (len cycles : Nat) : (s.advance len cycles).pc = s.pc + BitVec.ofNat 16 len := rfl
@[simp] theorem State.advance_cyc (s : State) (len cycles : Nat) : (s.advance len cycles).cyc = s.cyc + cycles := rfl

@[simp] theorem State.jump_a (s : State) (target : Word) (cycles : Nat) : (s.jump target cycles).a = s.a := rfl
@[simp] theorem State.jump_x (s : State) (target : Word) (cycles : Nat) : (s.jump target cycles).x = s.x := rfl
@[simp] theorem State.jump_y (s : State) (target : Word) (cycles : Nat) : (s.jump target cycles).y = s.y := rfl
@[simp] theorem State.jump_sp (s : State) (target : Word) (cycles : Nat) : (s.jump target cycles).sp = s.sp := rfl
@[simp] theorem State.jump_p (s : State) (target : Word) (cycles : Nat) : (s.jump target cycles).p = s.p := rfl
@[simp] theorem State.jump_mem (s : State) (target : Word) (cycles : Nat) : (s.jump target cycles).mem = s.mem := rfl
@[simp] theorem State.jump_nmiPending (s : State) (target : Word) (cycles : Nat) : (s.jump target cycles).nmiPending = s.nmiPending := rfl
@[simp] theorem State.jump_irqLine (s : State) (target : Word) (cycles : Nat) : (s.jump target cycles).irqLine = s.irqLine := rfl
@[simp] theorem State.jump_pc (s : State) (target : Word) (cycles : Nat) : (s.jump target cycles).pc = target := rfl
@[simp] theorem State.jump_cyc (s : State) (target : Word) (cycles : Nat) : (s.jump target cycles).cyc = s.cyc + cycles := rfl

/-! ## Interrupts and reset -/

@[simp] theorem State.pushFrame_a (s : State) (ret : Word) (b : Bool) : (s.pushFrame ret b).a = s.a := by
  simp only [State.pushFrame, State.push_a, State.pushWord_a]
@[simp] theorem State.pushFrame_x (s : State) (ret : Word) (b : Bool) : (s.pushFrame ret b).x = s.x := by
  simp only [State.pushFrame, State.push_x, State.pushWord_x]
@[simp] theorem State.pushFrame_y (s : State) (ret : Word) (b : Bool) : (s.pushFrame ret b).y = s.y := by
  simp only [State.pushFrame, State.push_y, State.pushWord_y]
@[simp] theorem State.pushFrame_pc (s : State) (ret : Word) (b : Bool) : (s.pushFrame ret b).pc = s.pc := by
  simp only [State.pushFrame, State.push_pc, State.pushWord_pc]
@[simp] theorem State.pushFrame_p (s : State) (ret : Word) (b : Bool) : (s.pushFrame ret b).p = s.p := by
  simp only [State.pushFrame, State.push_p, State.pushWord_p]
@[simp] theorem State.pushFrame_cyc (s : State) (ret : Word) (b : Bool) : (s.pushFrame ret b).cyc = s.cyc := by
  simp only [State.pushFrame, State.push_cyc, State.pushWord_cyc]
@[simp] theorem State.pushFrame_nmiPending (s : State) (ret : Word) (b : Bool) : (s.pushFrame ret b).nmiPending = s.nmiPending := by
  simp only [State.pushFrame, State.push_nmiPending, State.pushWord_nmiPending]
@[simp] theorem State.pushFrame_irqLine (s : State) (ret : Word) (b : Bool) : (s.pushFrame ret b).irqLine = s.irqLine := by
  simp only [State.pushFrame, State.push_irqLine, State.pushWord_irqLine]
@[simp] theorem State.pushFrame_sp (s : State) (ret : Word) (b : Bool) :
    (s.pushFrame ret b).sp = s.sp - 1#8 - 1#8 - 1#8 := by
  simp only [State.pushFrame, State.push_sp, State.pushWord_sp]

@[simp] theorem State.maskIrq_a (s : State) : s.maskIrq.a = s.a := rfl
@[simp] theorem State.maskIrq_x (s : State) : s.maskIrq.x = s.x := rfl
@[simp] theorem State.maskIrq_y (s : State) : s.maskIrq.y = s.y := rfl
@[simp] theorem State.maskIrq_sp (s : State) : s.maskIrq.sp = s.sp := rfl
@[simp] theorem State.maskIrq_pc (s : State) : s.maskIrq.pc = s.pc := rfl
@[simp] theorem State.maskIrq_mem (s : State) : s.maskIrq.mem = s.mem := rfl
@[simp] theorem State.maskIrq_cyc (s : State) : s.maskIrq.cyc = s.cyc := rfl
@[simp] theorem State.maskIrq_nmiPending (s : State) : s.maskIrq.nmiPending = s.nmiPending := rfl
@[simp] theorem State.maskIrq_irqLine (s : State) : s.maskIrq.irqLine = s.irqLine := rfl
@[simp] theorem State.maskIrq_p (s : State) : s.maskIrq.p = { s.p with i := true } := rfl

@[simp] theorem State.interruptEntry_a (s : State) (vector ret : Word) (b : Bool) (cycles : Nat) :
    (s.interruptEntry vector ret b cycles).a = s.a := by
  simp only [State.interruptEntry, State.jump_a, State.maskIrq_a, State.pushFrame_a]
@[simp] theorem State.interruptEntry_x (s : State) (vector ret : Word) (b : Bool) (cycles : Nat) :
    (s.interruptEntry vector ret b cycles).x = s.x := by
  simp only [State.interruptEntry, State.jump_x, State.maskIrq_x, State.pushFrame_x]
@[simp] theorem State.interruptEntry_y (s : State) (vector ret : Word) (b : Bool) (cycles : Nat) :
    (s.interruptEntry vector ret b cycles).y = s.y := by
  simp only [State.interruptEntry, State.jump_y, State.maskIrq_y, State.pushFrame_y]
@[simp] theorem State.interruptEntry_nmiPending (s : State) (vector ret : Word) (b : Bool) (cycles : Nat) :
    (s.interruptEntry vector ret b cycles).nmiPending = s.nmiPending := by
  simp only [State.interruptEntry, State.jump_nmiPending, State.maskIrq_nmiPending, State.pushFrame_nmiPending]
@[simp] theorem State.interruptEntry_irqLine (s : State) (vector ret : Word) (b : Bool) (cycles : Nat) :
    (s.interruptEntry vector ret b cycles).irqLine = s.irqLine := by
  simp only [State.interruptEntry, State.jump_irqLine, State.maskIrq_irqLine, State.pushFrame_irqLine]
@[simp] theorem State.interruptEntry_sp (s : State) (vector ret : Word) (b : Bool) (cycles : Nat) :
    (s.interruptEntry vector ret b cycles).sp = s.sp - 1#8 - 1#8 - 1#8 := by
  simp only [State.interruptEntry, State.jump_sp, State.maskIrq_sp, State.pushFrame_sp]
@[simp] theorem State.interruptEntry_p (s : State) (vector ret : Word) (b : Bool) (cycles : Nat) :
    (s.interruptEntry vector ret b cycles).p = { s.p with i := true } := by
  simp only [State.interruptEntry, State.jump_p, State.maskIrq_p, State.pushFrame_p]
@[simp] theorem State.interruptEntry_cyc (s : State) (vector ret : Word) (b : Bool) (cycles : Nat) :
    (s.interruptEntry vector ret b cycles).cyc = s.cyc + cycles := by
  simp only [State.interruptEntry, State.jump_cyc, State.maskIrq_cyc, State.pushFrame_cyc]
@[simp] theorem State.interruptEntry_mem (s : State) (vector ret : Word) (b : Bool) (cycles : Nat) :
    (s.interruptEntry vector ret b cycles).mem = (s.pushFrame ret b).mem := by
  simp only [State.interruptEntry, State.jump_mem, State.maskIrq_mem]
@[simp] theorem State.interruptEntry_pc (s : State) (vector ret : Word) (b : Bool) (cycles : Nat) :
    (s.interruptEntry vector ret b cycles).pc = (s.pushFrame ret b).read16 vector := by
  simp only [State.interruptEntry, State.jump_pc]; rfl

@[simp] theorem State.interruptReturn_a (s : State) (cycles : Nat) : (s.interruptReturn cycles).a = s.a := rfl
@[simp] theorem State.interruptReturn_x (s : State) (cycles : Nat) : (s.interruptReturn cycles).x = s.x := rfl
@[simp] theorem State.interruptReturn_y (s : State) (cycles : Nat) : (s.interruptReturn cycles).y = s.y := rfl
@[simp] theorem State.interruptReturn_mem (s : State) (cycles : Nat) : (s.interruptReturn cycles).mem = s.mem := rfl
@[simp] theorem State.interruptReturn_nmiPending (s : State) (cycles : Nat) : (s.interruptReturn cycles).nmiPending = s.nmiPending := rfl
@[simp] theorem State.interruptReturn_irqLine (s : State) (cycles : Nat) : (s.interruptReturn cycles).irqLine = s.irqLine := rfl
@[simp] theorem State.interruptReturn_sp (s : State) (cycles : Nat) : (s.interruptReturn cycles).sp = s.sp + 1#8 + 1#8 + 1#8 := rfl
@[simp] theorem State.interruptReturn_p (s : State) (cycles : Nat) : (s.interruptReturn cycles).p = pLoad s.pullByte s.p := rfl
@[simp] theorem State.interruptReturn_cyc (s : State) (cycles : Nat) : (s.interruptReturn cycles).cyc = s.cyc + cycles := rfl
@[simp] theorem State.interruptReturn_pc (s : State) (cycles : Nat) : (s.interruptReturn cycles).pc = mkWord s.pulled.pulled.pullByte s.pulled.pullByte := rfl

@[simp] theorem State.resetCall_a (s : State) : (s.resetCall).a = s.a := rfl
@[simp] theorem State.resetCall_x (s : State) : (s.resetCall).x = s.x := rfl
@[simp] theorem State.resetCall_y (s : State) : (s.resetCall).y = s.y := rfl
@[simp] theorem State.resetCall_mem (s : State) : (s.resetCall).mem = s.mem := rfl
@[simp] theorem State.resetCall_irqLine (s : State) : (s.resetCall).irqLine = s.irqLine := rfl
@[simp] theorem State.resetCall_sp (s : State) : (s.resetCall).sp = 0xFD#8 := rfl
@[simp] theorem State.resetCall_p (s : State) : (s.resetCall).p = { s.p with d := false, i := true } := rfl
@[simp] theorem State.resetCall_pc (s : State) : (s.resetCall).pc = s.read16 Config.vecReset := rfl
@[simp] theorem State.resetCall_cyc (s : State) : (s.resetCall).cyc = 0 := rfl
@[simp] theorem State.resetCall_nmiPending (s : State) : (s.resetCall).nmiPending = false := rfl

/-! ## Register results -/

@[simp] theorem State.loadA_x (s : State) (v : Byte) : (s.loadA v).x = s.x := rfl
@[simp] theorem State.loadA_y (s : State) (v : Byte) : (s.loadA v).y = s.y := rfl
@[simp] theorem State.loadA_sp (s : State) (v : Byte) : (s.loadA v).sp = s.sp := rfl
@[simp] theorem State.loadA_pc (s : State) (v : Byte) : (s.loadA v).pc = s.pc := rfl
@[simp] theorem State.loadA_mem (s : State) (v : Byte) : (s.loadA v).mem = s.mem := rfl
@[simp] theorem State.loadA_cyc (s : State) (v : Byte) : (s.loadA v).cyc = s.cyc := rfl
@[simp] theorem State.loadA_nmiPending (s : State) (v : Byte) : (s.loadA v).nmiPending = s.nmiPending := rfl
@[simp] theorem State.loadA_irqLine (s : State) (v : Byte) : (s.loadA v).irqLine = s.irqLine := rfl
@[simp] theorem State.loadA_a (s : State) (v : Byte) : (s.loadA v).a = v := rfl
@[simp] theorem State.loadA_p (s : State) (v : Byte) : (s.loadA v).p = setZN v s.p := rfl

@[simp] theorem State.loadX_a (s : State) (v : Byte) : (s.loadX v).a = s.a := rfl
@[simp] theorem State.loadX_y (s : State) (v : Byte) : (s.loadX v).y = s.y := rfl
@[simp] theorem State.loadX_sp (s : State) (v : Byte) : (s.loadX v).sp = s.sp := rfl
@[simp] theorem State.loadX_pc (s : State) (v : Byte) : (s.loadX v).pc = s.pc := rfl
@[simp] theorem State.loadX_mem (s : State) (v : Byte) : (s.loadX v).mem = s.mem := rfl
@[simp] theorem State.loadX_cyc (s : State) (v : Byte) : (s.loadX v).cyc = s.cyc := rfl
@[simp] theorem State.loadX_nmiPending (s : State) (v : Byte) : (s.loadX v).nmiPending = s.nmiPending := rfl
@[simp] theorem State.loadX_irqLine (s : State) (v : Byte) : (s.loadX v).irqLine = s.irqLine := rfl
@[simp] theorem State.loadX_x (s : State) (v : Byte) : (s.loadX v).x = v := rfl
@[simp] theorem State.loadX_p (s : State) (v : Byte) : (s.loadX v).p = setZN v s.p := rfl

@[simp] theorem State.loadY_a (s : State) (v : Byte) : (s.loadY v).a = s.a := rfl
@[simp] theorem State.loadY_x (s : State) (v : Byte) : (s.loadY v).x = s.x := rfl
@[simp] theorem State.loadY_sp (s : State) (v : Byte) : (s.loadY v).sp = s.sp := rfl
@[simp] theorem State.loadY_pc (s : State) (v : Byte) : (s.loadY v).pc = s.pc := rfl
@[simp] theorem State.loadY_mem (s : State) (v : Byte) : (s.loadY v).mem = s.mem := rfl
@[simp] theorem State.loadY_cyc (s : State) (v : Byte) : (s.loadY v).cyc = s.cyc := rfl
@[simp] theorem State.loadY_nmiPending (s : State) (v : Byte) : (s.loadY v).nmiPending = s.nmiPending := rfl
@[simp] theorem State.loadY_irqLine (s : State) (v : Byte) : (s.loadY v).irqLine = s.irqLine := rfl
@[simp] theorem State.loadY_y (s : State) (v : Byte) : (s.loadY v).y = v := rfl
@[simp] theorem State.loadY_p (s : State) (v : Byte) : (s.loadY v).p = setZN v s.p := rfl

@[simp] theorem State.loadAlu_x (s : State) (u : AluResult) : (s.loadAlu u).x = s.x := rfl
@[simp] theorem State.loadAlu_y (s : State) (u : AluResult) : (s.loadAlu u).y = s.y := rfl
@[simp] theorem State.loadAlu_sp (s : State) (u : AluResult) : (s.loadAlu u).sp = s.sp := rfl
@[simp] theorem State.loadAlu_pc (s : State) (u : AluResult) : (s.loadAlu u).pc = s.pc := rfl
@[simp] theorem State.loadAlu_mem (s : State) (u : AluResult) : (s.loadAlu u).mem = s.mem := rfl
@[simp] theorem State.loadAlu_cyc (s : State) (u : AluResult) : (s.loadAlu u).cyc = s.cyc := rfl
@[simp] theorem State.loadAlu_nmiPending (s : State) (u : AluResult) : (s.loadAlu u).nmiPending = s.nmiPending := rfl
@[simp] theorem State.loadAlu_irqLine (s : State) (u : AluResult) : (s.loadAlu u).irqLine = s.irqLine := rfl
@[simp] theorem State.loadAlu_a (s : State) (u : AluResult) : (s.loadAlu u).a = u.r := rfl
@[simp] theorem State.loadAlu_p (s : State) (u : AluResult) : (s.loadAlu u).p = putCVZN u s.p := rfl

/-! ## The status register -/

@[simp] theorem setZN_v (v : Byte) (p : Status) : (setZN v p).v = p.v := rfl
@[simp] theorem setZN_b (v : Byte) (p : Status) : (setZN v p).b = p.b := rfl
@[simp] theorem setZN_d (v : Byte) (p : Status) : (setZN v p).d = p.d := rfl
@[simp] theorem setZN_i (v : Byte) (p : Status) : (setZN v p).i = p.i := rfl
@[simp] theorem setZN_c (v : Byte) (p : Status) : (setZN v p).c = p.c := rfl
@[simp] theorem setZN_z (v : Byte) (p : Status) : (setZN v p).z = (v == 0x00#8) := rfl
@[simp] theorem setZN_n (v : Byte) (p : Status) : (setZN v p).n = bitOf v 7 := rfl

@[simp] theorem pLoad_b (v : Byte) (p : Status) : (pLoad v p).b = p.b := rfl
@[simp] theorem pLoad_n (v : Byte) (p : Status) : (pLoad v p).n = bitOf v 7 := rfl
@[simp] theorem pLoad_v (v : Byte) (p : Status) : (pLoad v p).v = bitOf v 6 := rfl
@[simp] theorem pLoad_d (v : Byte) (p : Status) : (pLoad v p).d = bitOf v 3 := rfl
@[simp] theorem pLoad_i (v : Byte) (p : Status) : (pLoad v p).i = bitOf v 2 := rfl
@[simp] theorem pLoad_z (v : Byte) (p : Status) : (pLoad v p).z = bitOf v 1 := rfl
@[simp] theorem pLoad_c (v : Byte) (p : Status) : (pLoad v p).c = bitOf v 0 := rfl

@[simp] theorem putCVZN_b (u : AluResult) (p : Status) : (putCVZN u p).b = p.b := rfl
@[simp] theorem putCVZN_d (u : AluResult) (p : Status) : (putCVZN u p).d = p.d := rfl
@[simp] theorem putCVZN_i (u : AluResult) (p : Status) : (putCVZN u p).i = p.i := rfl
@[simp] theorem putCVZN_c (u : AluResult) (p : Status) : (putCVZN u p).c = u.c := rfl
@[simp] theorem putCVZN_v (u : AluResult) (p : Status) : (putCVZN u p).v = u.v := rfl
@[simp] theorem putCVZN_z (u : AluResult) (p : Status) : (putCVZN u p).z = u.z := rfl
@[simp] theorem putCVZN_n (u : AluResult) (p : Status) : (putCVZN u p).n = u.n := rfl

@[simp] theorem compareFlags_v (r m : Byte) (p : Status) : (compareFlags r m p).v = p.v := rfl
@[simp] theorem compareFlags_b (r m : Byte) (p : Status) : (compareFlags r m p).b = p.b := rfl
@[simp] theorem compareFlags_d (r m : Byte) (p : Status) : (compareFlags r m p).d = p.d := rfl
@[simp] theorem compareFlags_i (r m : Byte) (p : Status) : (compareFlags r m p).i = p.i := rfl
@[simp] theorem compareFlags_c (r m : Byte) (p : Status) : (compareFlags r m p).c = decide (m.toNat ≤ r.toNat) := rfl
@[simp] theorem compareFlags_z (r m : Byte) (p : Status) : (compareFlags r m p).z = (r == m) := rfl
@[simp] theorem compareFlags_n (r m : Byte) (p : Status) : (compareFlags r m p).n = bitOf (r - m) 7 := rfl

@[simp] theorem bitTestFlags_b (a m : Byte) (p : Status) : (bitTestFlags a m p).b = p.b := rfl
@[simp] theorem bitTestFlags_d (a m : Byte) (p : Status) : (bitTestFlags a m p).d = p.d := rfl
@[simp] theorem bitTestFlags_i (a m : Byte) (p : Status) : (bitTestFlags a m p).i = p.i := rfl
@[simp] theorem bitTestFlags_c (a m : Byte) (p : Status) : (bitTestFlags a m p).c = p.c := rfl
@[simp] theorem bitTestFlags_z (a m : Byte) (p : Status) : (bitTestFlags a m p).z = ((a &&& m) == 0x00#8) := rfl
@[simp] theorem bitTestFlags_n (a m : Byte) (p : Status) : (bitTestFlags a m p).n = bitOf m 7 := rfl
@[simp] theorem bitTestFlags_v (a m : Byte) (p : Status) : (bitTestFlags a m p).v = bitOf m 6 := rfl

end Sys2Proof.Machine
end

