-- ==== Sys2Proof/Laws/Memory.lean ====
section
/-! SUPPORT. Memory as a list of cells: what a write does to every read, that the canonical form is kept, and that
it determines the list. -/

namespace Sys2Proof.Machine

theorem Memory.read_insert (m : Memory) (a b : Nat) (v : Byte) :
    Memory.read (Memory.insert m a v) b = if a = b then v else Memory.read m b := by
  induction m with
  | nil => simp [Memory.insert, Memory.read]
  | cons cell rest ih =>
    obtain ⟨k, w⟩ := cell
    simp only [Memory.insert]
    split
    · simp [Memory.read]
    · split
      · subst k; simp only [Memory.read]; split <;> rfl
      · simp only [Memory.read, ih]
        split
        · split <;> simp_all
        · rfl

theorem Memory.read_filter (m : Memory) (a b : Nat) :
    Memory.read (m.filter fun cell => cell.1 != a) b =
      if a = b then Config.unlistedByte else Memory.read m b := by
  induction m with
  | nil => simp [Memory.read]
  | cons cell rest ih =>
    obtain ⟨k, w⟩ := cell
    by_cases h : k = a
    · subst k; simp only [bne_self_eq_false, Bool.false_eq_true, not_false_eq_true, List.filter_cons_of_neg, ih]
      split <;> simp_all [Memory.read]
    · rw [List.filter_cons_of_pos (by simpa using h)]
      simp only [Memory.read, ih]
      split
      · split <;> simp_all
      · rfl

/-- What a write does to every read (R51, R52). -/
theorem Memory.read_write (m : Memory) (a b : Nat) (v : Byte) :
    Memory.read (Memory.write m a v) b = if a = b then v else Memory.read m b := by
  simp only [Memory.write]
  split
  · rw [Memory.read_filter]; split <;> simp_all
  · exact Memory.read_insert m a b v

/-! ## The canonical form -/

theorem Memory.wf_iff (m : Memory) : Memory.wf m = true ↔
    m.Pairwise (fun p q => p.1 < q.1) ∧ ∀ cell ∈ m, cell.1 < Config.memSize ∧ cell.2 ≠ Config.unlistedByte := by
  simp [Memory.wf]

theorem Memory.mem_insert {m : Memory} {a : Nat} {v : Byte} {cell : Host.Cell}
    (h : cell ∈ Memory.insert m a v) : cell = (a, v) ∨ cell ∈ m := by
  induction m with
  | nil => simpa [Memory.insert] using h
  | cons head rest ih =>
    obtain ⟨k, w⟩ := head
    simp only [Memory.insert] at h
    split at h
    · simpa using h
    · split at h
      · rcases List.mem_cons.1 h with h | h
        · exact .inl h
        · exact .inr (List.mem_cons_of_mem _ h)
      · rcases List.mem_cons.1 h with h | h
        · exact .inr (h ▸ List.mem_cons_self)
        · exact (ih h).imp_right (List.mem_cons_of_mem _)

theorem Memory.pairwise_insert {m : Memory} (a : Nat) (v : Byte)
    (h : m.Pairwise fun p q => p.1 < q.1) : (Memory.insert m a v).Pairwise fun p q => p.1 < q.1 := by
  induction m with
  | nil => simp [Memory.insert]
  | cons head rest ih =>
    obtain ⟨k, w⟩ := head
    obtain ⟨hk, hr⟩ := List.pairwise_cons.1 h
    simp only [Memory.insert]
    split
    · rename_i hlt
      refine List.pairwise_cons.2 ⟨fun c hc => ?_, h⟩
      rcases List.mem_cons.1 hc with rfl | hc
      · exact hlt
      · exact Nat.lt_trans hlt (hk c hc)
    · split
      · rename_i _ e; subst e; exact List.pairwise_cons.2 ⟨hk, hr⟩
      · refine List.pairwise_cons.2 ⟨fun c hc => ?_, ih hr⟩
        rcases Memory.mem_insert hc with rfl | hc
        · show k < a; omega
        · exact hk c hc

/-- A write keeps the canonical form. -/
theorem Memory.wf_write {m : Memory} {a : Nat} (v : Byte) (ha : a < Config.memSize)
    (h : Memory.wf m = true) : Memory.wf (Memory.write m a v) = true := by
  rw [Memory.wf_iff] at h ⊢
  simp only [Memory.write]
  split
  · exact ⟨h.1.filter _, fun c hc => h.2 c (List.mem_of_mem_filter hc)⟩
  · rename_i hv
    refine ⟨Memory.pairwise_insert a v h.1, fun c hc => ?_⟩
    rcases Memory.mem_insert hc with rfl | hc
    · exact ⟨ha, hv⟩
    · exact h.2 c hc

theorem State.wf_writeMem {s : State} (a : Word) (v : Byte) (h : Memory.wf s.mem = true) :
    Memory.wf (s.writeMem a v).mem = true := Memory.wf_write v a.isLt h

theorem State.wf_push {s : State} (v : Byte) (h : Memory.wf s.mem = true) :
    Memory.wf (s.push v).mem = true := Memory.wf_write v s.stackAddr.isLt h

theorem State.wf_pushWord {s : State} (w : Word) (h : Memory.wf s.mem = true) :
    Memory.wf (s.pushWord w).mem = true := State.wf_push _ (State.wf_push _ h)

theorem State.wf_interruptEntry {s : State} (vector ret : Word) (b : Bool) (cycles : Nat)
    (h : Memory.wf s.mem = true) : Memory.wf (s.interruptEntry vector ret b cycles).mem = true :=
  State.wf_push _ (State.wf_pushWord _ h)

/-- A listed pair of a canonical memory is what its address reads. -/
theorem Memory.read_of_mem {m : Memory} (h : m.Pairwise fun p q => p.1 < q.1) {cell : Host.Cell}
    (hc : cell ∈ m) : Memory.read m cell.1 = cell.2 := by
  induction m with
  | nil => cases hc
  | cons head rest ih =>
    obtain ⟨hk, hr⟩ := List.pairwise_cons.1 h
    rcases List.mem_cons.1 hc with rfl | hc
    · simp [Memory.read]
    · have := hk cell hc
      simp [Memory.read, Nat.ne_of_lt this, ih hr hc]

/-- An address no pair lists reads the unwritten byte. -/
theorem Memory.read_of_not_mem {m : Memory} {a : Nat} (h : ∀ cell ∈ m, cell.1 ≠ a) :
    Memory.read m a = Config.unlistedByte := by
  induction m with
  | nil => rfl
  | cons head rest ih =>
    have h0 := h head List.mem_cons_self
    simp [Memory.read, h0, ih fun c hc => h c (List.mem_cons_of_mem _ hc)]

/-! ## Reads of the state -/

theorem State.readMem_writeMem (s : State) (a b : Word) (v : Byte) :
    (s.writeMem a v).readMem b = if a = b then v else s.readMem b := by
  simp only [State.readMem, State.writeMem, Memory.read_write, BitVec.toNat_inj]

@[simp] theorem State.readMem_writeMem_same (s : State) (a : Word) (v : Byte) :
    (s.writeMem a v).readMem a = v := by simp [State.readMem_writeMem]

theorem State.readMem_writeMem_other (s : State) {a b : Word} (v : Byte) (h : b ≠ a) :
    (s.writeMem a v).readMem b = s.readMem b := by simp [State.readMem_writeMem, Ne.symm h]

/-- A read depends on the memory field only. -/
theorem State.readMem_congr {s t : State} (h : s.mem = t.mem) (a : Word) : s.readMem a = t.readMem a := by
  simp [State.readMem, h]

theorem State.read16_congr {s t : State} (h : s.mem = t.mem) (a : Word) : s.read16 a = t.read16 a := by
  simp [State.read16, State.readMem, h]

theorem State.readMem_push (s : State) (v : Byte) (b : Word) :
    (s.push v).readMem b = if s.stackAddr = b then v else s.readMem b :=
  State.readMem_writeMem s s.stackAddr b v

theorem State.stackAddr_push (s : State) (v : Byte) :
    (s.push v).stackAddr = mkWord Config.stackPage (s.sp - 1#8) := rfl

theorem State.stackAddr_pulled (s : State) : s.pulled.stackAddr = mkWord Config.stackPage (s.sp + 1#8) := rfl

end Sys2Proof.Machine
end

