-- ==== Sys2Proof/Laws/Operands.lean ====
section
/-! SUPPORT. Each access class and each shared operation, once: the state it answers. -/

namespace Sys2Proof.Machine

/-! ## Addresses (R104 to R112) -/

@[simp] theorem MemMode.ea_zp (z : Byte) (s : State) : (MemMode.zp z).ea s = zext16 z := rfl
@[simp] theorem MemMode.ea_zpx (z : Byte) (s : State) : (MemMode.zpx z).ea s = zext16 (z + s.x) := rfl
@[simp] theorem MemMode.ea_zpy (z : Byte) (s : State) : (MemMode.zpy z).ea s = zext16 (z + s.y) := rfl
@[simp] theorem MemMode.ea_abs (w : Word) (s : State) : (MemMode.abs w).ea s = w := rfl
@[simp] theorem MemMode.ea_absx (w : Word) (s : State) : (MemMode.absx w).ea s = w + zext16 s.x := rfl
@[simp] theorem MemMode.ea_absy (w : Word) (s : State) : (MemMode.absy w).ea s = w + zext16 s.y := rfl
@[simp] theorem MemMode.ea_indx (z : Byte) (s : State) : (MemMode.indx z).ea s = s.read16Zp (z + s.x) := rfl
@[simp] theorem MemMode.ea_indy (z : Byte) (s : State) :
    (MemMode.indy z).ea s = s.read16Zp z + zext16 s.y := rfl

/-- The addresses do not depend on PC, P, SP, CYC or the latches. -/
theorem MemMode.ea_congr {s t : State} (m : MemMode) (hx : s.x = t.x) (hy : s.y = t.y) (hm : s.mem = t.mem) :
    m.ea s = m.ea t := by
  cases m <;> simp [State.read16Zp, State.readMem, hx, hy, hm]

theorem MemMode.base_congr {s t : State} (m : MemMode) (hx : s.x = t.x) (hy : s.y = t.y) (hm : s.mem = t.mem) :
    m.base s = m.base t := by
  cases m <;> simp [MemMode.base, State.read16Zp, State.readMem, hx, hy, hm]

theorem MemMode.crosses_congr {s t : State} (m : MemMode) (hx : s.x = t.x) (hy : s.y = t.y) (hm : s.mem = t.mem) :
    m.crosses s = m.crosses t := by
  simp [MemMode.crosses, m.ea_congr hx hy hm, m.base_congr hx hy hm]

/-! ## Page crossing (R104 to R112): only the indexed absolute modes and (zp),Y can cross -/

@[simp] theorem MemMode.crosses_zp (z : Byte) (s : State) : (MemMode.zp z).crosses s = false := crossed_self _
@[simp] theorem MemMode.crosses_zpx (z : Byte) (s : State) : (MemMode.zpx z).crosses s = false := crossed_self _
@[simp] theorem MemMode.crosses_zpy (z : Byte) (s : State) : (MemMode.zpy z).crosses s = false := crossed_self _
@[simp] theorem MemMode.crosses_abs (w : Word) (s : State) : (MemMode.abs w).crosses s = false := crossed_self _
@[simp] theorem MemMode.crosses_indx (z : Byte) (s : State) : (MemMode.indx z).crosses s = false := crossed_self _
@[simp] theorem MemMode.crosses_absx (w : Word) (s : State) :
    (MemMode.absx w).crosses s = crossed w (w + zext16 s.x) := rfl
@[simp] theorem MemMode.crosses_absy (w : Word) (s : State) :
    (MemMode.absy w).crosses s = crossed w (w + zext16 s.y) := rfl
@[simp] theorem MemMode.crosses_indy (z : Byte) (s : State) :
    (MemMode.indy z).crosses s = crossed (s.read16Zp z) (s.read16Zp z + zext16 s.y) := rfl

/-! ## The classes (R114, R174) -/

/-- A read-class instruction: the effect of the operand value, PC past the instruction, the cycles. -/
theorem readClass_eq (f : Byte → State → State) (src : Source) (base : Nat) (s : State) :
    readClass f src base s =
      { f (src.value s) s with pc := (f (src.value s) s).pc + BitVec.ofNat 16 src.length,
                               cyc := (f (src.value s) s).cyc + (base + src.penalty s) } := rfl

/-- A read-class instruction in a mode that cannot cross a page costs its base count. -/
theorem readClass_of_not_crosses (f : Byte → State → State) {m : MemMode} {s : State} (h : m.crosses s = false)
    (base : Nat) : readClass f (.mem m) base s = (f (s.readMem (m.ea s)) s).advance m.length base := by
  simp [readClass, Source.value, Source.length, Source.penalty, h]

/-- A store: one byte of memory, PC and CYC. -/
theorem storeClass_eq (v : Byte) (m : MemMode) (base : Nat) (s : State) :
    storeClass v m base s =
      { s with mem := Memory.write s.mem (m.ea s).toNat v, pc := s.pc + BitVec.ofNat 16 m.length,
               cyc := s.cyc + base } := rfl

/-- A read-modify-write: one byte of memory, P, PC and CYC. -/
theorem rmwMemory_eq (f : RmwOp) (m : MemMode) (base : Nat) (s : State) :
    rmwMemory f m base s =
      { s with mem := Memory.write s.mem (m.ea s).toNat (f (s.readMem (m.ea s)) s.p).1,
               p := (f (s.readMem (m.ea s)) s.p).2, pc := s.pc + BitVec.ofNat 16 m.length,
               cyc := s.cyc + base } := rfl

/-- An accumulator form: A, P, PC and CYC. -/
theorem rmwAccumulator_eq (f : RmwOp) (base : Nat) (s : State) :
    rmwAccumulator f base s =
      { s with a := (f s.a s.p).1, p := (f s.a s.p).2, pc := s.pc + 1#16, cyc := s.cyc + base } := rfl

theorem branchIf_taken (d : Byte) (base : Nat) (s : State) :
    branchIf true d base s =
      { s with pc := s.branchTarget d,
               cyc := s.cyc + (base + 1 + (crossed s.branchNext (s.branchTarget d)).toNat) } := rfl

theorem branchIf_not_taken (d : Byte) (base : Nat) (s : State) :
    branchIf false d base s = { s with pc := s.branchNext, cyc := s.cyc + base } := rfl

/-- A branch changes PC and CYC only. -/
theorem branchIf_eq (cond : Bool) (d : Byte) (base : Nat) (s : State) :
    ∃ target cycles, branchIf cond d base s = { s with pc := target, cyc := s.cyc + cycles } := by
  cases cond
  · exact ⟨_, _, branchIf_not_taken d base s⟩
  · exact ⟨_, _, branchIf_taken d base s⟩

@[simp] theorem branchIf_a (cond : Bool) (d : Byte) (base : Nat) (s : State) :
    (branchIf cond d base s).a = s.a := by cases cond <;> rfl
@[simp] theorem branchIf_x (cond : Bool) (d : Byte) (base : Nat) (s : State) :
    (branchIf cond d base s).x = s.x := by cases cond <;> rfl
@[simp] theorem branchIf_y (cond : Bool) (d : Byte) (base : Nat) (s : State) :
    (branchIf cond d base s).y = s.y := by cases cond <;> rfl
@[simp] theorem branchIf_sp (cond : Bool) (d : Byte) (base : Nat) (s : State) :
    (branchIf cond d base s).sp = s.sp := by cases cond <;> rfl
@[simp] theorem branchIf_p (cond : Bool) (d : Byte) (base : Nat) (s : State) :
    (branchIf cond d base s).p = s.p := by cases cond <;> rfl
@[simp] theorem branchIf_mem (cond : Bool) (d : Byte) (base : Nat) (s : State) :
    (branchIf cond d base s).mem = s.mem := by cases cond <;> rfl
@[simp] theorem branchIf_nmiPending (cond : Bool) (d : Byte) (base : Nat) (s : State) :
    (branchIf cond d base s).nmiPending = s.nmiPending := by cases cond <;> rfl
@[simp] theorem branchIf_irqLine (cond : Bool) (d : Byte) (base : Nat) (s : State) :
    (branchIf cond d base s).irqLine = s.irqLine := by cases cond <;> rfl

/-- Where a branch goes. -/
theorem branchIf_pc (cond : Bool) (d : Byte) (base : Nat) (s : State) :
    (branchIf cond d base s).pc = if cond then s.branchTarget d else s.branchNext := by cases cond <;> rfl

/-- What a branch costs (R174). -/
theorem branchIf_cyc (cond : Bool) (d : Byte) (base : Nat) (s : State) :
    (branchIf cond d base s).cyc =
      s.cyc + (base + if cond then 1 + (crossed s.branchNext (s.branchTarget d)).toNat else 0) := by
  cases cond
  · rfl
  · simp [branchIf, Nat.add_assoc]

/-! ## The stack (R58, R59) -/

/-- A pull after a push returns the byte. -/
@[simp] theorem State.pullByte_push (s : State) (v : Byte) : (s.push v).pullByte = v := by
  have e : (s.push v).pulled.stackAddr = s.stackAddr := by
    simp [State.stackAddr]
  have r : (s.push v).pullByte = (s.push v).readMem s.stackAddr := by
    simp only [State.pullByte, e]; rfl
  rw [r, State.readMem_push, if_pos rfl]

/-- A pull reads the page slot above SP. -/
theorem State.pullByte_eq (s : State) : s.pullByte = s.readMem (mkWord Config.stackPage (s.sp + 1#8)) := rfl

/-- Slots of the stack page at different SP values are different addresses. -/
theorem stackSlot_ne {a b : Byte} (h : a ≠ b) : mkWord Config.stackPage a ≠ mkWord Config.stackPage b := by
  simpa [mkWord_inj] using h

/-- What three pushes leave at every address: the last one wins where slots could meet, which they do not. -/
theorem State.readMem_push3 (s : State) (b0 b1 b2 : Byte) (a : Word) :
    (((s.push b0).push b1).push b2).readMem a =
      if mkWord Config.stackPage (s.sp - 1#8 - 1#8) = a then b2
      else if mkWord Config.stackPage (s.sp - 1#8) = a then b1
      else if mkWord Config.stackPage s.sp = a then b0 else s.readMem a := by
  rw [State.readMem_push, State.readMem_push, State.readMem_push]; rfl

theorem State.readMem_pushWord (s : State) (w : Word) (a : Word) :
    (s.pushWord w).readMem a =
      if mkWord Config.stackPage (s.sp - 1#8) = a then loByte w
      else if mkWord Config.stackPage s.sp = a then hiByte w else s.readMem a := by
  rw [State.pushWord, State.readMem_push, State.readMem_push]; rfl

end Sys2Proof.Machine
end

