-- ==== Sys2Proof/Laws/Families.lean ====
section
/-! SUPPORT. What each read-class family does, once for all its modes (R120 to R122, R140 to R152), and the two results
of SBC by the bit D. -/

namespace Sys2Proof.Machine

theorem ldaFrom_eq (src : Source) (base : Nat) (s : State) :
    ldaFrom src base s =
      { s with a := src.value s, p := setZN (src.value s) s.p,
               pc := s.pc + BitVec.ofNat 16 src.length, cyc := s.cyc + (base + src.penalty s) } := rfl

theorem ldxFrom_eq (src : Source) (base : Nat) (s : State) :
    ldxFrom src base s =
      { s with x := src.value s, p := setZN (src.value s) s.p,
               pc := s.pc + BitVec.ofNat 16 src.length, cyc := s.cyc + (base + src.penalty s) } := rfl

theorem ldyFrom_eq (src : Source) (base : Nat) (s : State) :
    ldyFrom src base s =
      { s with y := src.value s, p := setZN (src.value s) s.p,
               pc := s.pc + BitVec.ofNat 16 src.length, cyc := s.cyc + (base + src.penalty s) } := rfl

theorem andFrom_eq (src : Source) (base : Nat) (s : State) :
    andFrom src base s =
      { s with a := s.a &&& src.value s, p := setZN (s.a &&& src.value s) s.p,
               pc := s.pc + BitVec.ofNat 16 src.length, cyc := s.cyc + (base + src.penalty s) } := rfl

theorem oraFrom_eq (src : Source) (base : Nat) (s : State) :
    oraFrom src base s =
      { s with a := s.a ||| src.value s, p := setZN (s.a ||| src.value s) s.p,
               pc := s.pc + BitVec.ofNat 16 src.length, cyc := s.cyc + (base + src.penalty s) } := rfl

theorem eorFrom_eq (src : Source) (base : Nat) (s : State) :
    eorFrom src base s =
      { s with a := s.a ^^^ src.value s, p := setZN (s.a ^^^ src.value s) s.p,
               pc := s.pc + BitVec.ofNat 16 src.length, cyc := s.cyc + (base + src.penalty s) } := rfl

theorem bitFrom_eq (src : Source) (base : Nat) (s : State) :
    bitFrom src base s =
      { s with p := bitTestFlags s.a (src.value s) s.p,
               pc := s.pc + BitVec.ofNat 16 src.length, cyc := s.cyc + (base + src.penalty s) } := rfl

theorem adcFrom_eq (src : Source) (base : Nat) (s : State) :
    adcFrom src base s =
      { s with a := (adcResult s.a (src.value s) s.p).r, p := putCVZN (adcResult s.a (src.value s) s.p) s.p,
               pc := s.pc + BitVec.ofNat 16 src.length, cyc := s.cyc + (base + src.penalty s) } := rfl

theorem sbcFrom_eq (src : Source) (base : Nat) (s : State) :
    sbcFrom src base s =
      { s with a := (sbcResult s.a (src.value s) s.p).r, p := putCVZN (sbcResult s.a (src.value s) s.p) s.p,
               pc := s.pc + BitVec.ofNat 16 src.length, cyc := s.cyc + (base + src.penalty s) } := rfl

theorem cmpFrom_eq (src : Source) (base : Nat) (s : State) :
    cmpFrom src base s =
      { s with p := compareFlags s.a (src.value s) s.p,
               pc := s.pc + BitVec.ofNat 16 src.length, cyc := s.cyc + (base + src.penalty s) } := rfl

theorem cpxFrom_eq (src : Source) (base : Nat) (s : State) :
    cpxFrom src base s =
      { s with p := compareFlags s.x (src.value s) s.p,
               pc := s.pc + BitVec.ofNat 16 src.length, cyc := s.cyc + (base + src.penalty s) } := rfl

theorem cpyFrom_eq (src : Source) (base : Nat) (s : State) :
    cpyFrom src base s =
      { s with p := compareFlags s.y (src.value s) s.p,
               pc := s.pc + BitVec.ofNat 16 src.length, cyc := s.cyc + (base + src.penalty s) } := rfl

/-! ## Which arithmetic (R144, R147) -/

theorem adcResult_binary {p : Status} (h : p.d = false) (a m : Byte) : adcResult a m p = adcBin a m p.c := by
  simp [adcResult, h]

theorem adcResult_decimal {p : Status} (h : p.d = true) (a m : Byte) : adcResult a m p = bcdAdc a m p.c := by
  simp [adcResult, h]

/-- The flags of SBC are the binary ones in both modes; only the byte depends on D. -/
theorem sbcResult_eq (a m : Byte) (p : Status) :
    sbcResult a m p =
      { r := if p.d = false then (adcBin a (m ^^^ 0xFF#8) p.c).r else bcdSbc a m p.c,
        c := (adcBin a (m ^^^ 0xFF#8) p.c).c, v := (adcBin a (m ^^^ 0xFF#8) p.c).v,
        z := (adcBin a (m ^^^ 0xFF#8) p.c).z, n := (adcBin a (m ^^^ 0xFF#8) p.c).n } := by
  unfold sbcResult
  cases p.d <;> simp

end Sys2Proof.Machine
end

