-- ==== Sys2Proof/Laws/Flags.lean ====
section
/-! SUPPORT. The status byte and the read-modify-write operations: their values once and for all. -/

namespace Sys2Proof.Machine

/-! ## The status byte (R27, R28) -/

/-- The eight bits of the pushed byte. -/
theorem bitOf_pImage (b : Bool) (p : Status) :
    bitOf (pImage b p) 7 = p.n ∧ bitOf (pImage b p) 6 = p.v ∧ bitOf (pImage b p) 5 = true ∧
      bitOf (pImage b p) 4 = b ∧ bitOf (pImage b p) 3 = p.d ∧ bitOf (pImage b p) 2 = p.i ∧
      bitOf (pImage b p) 1 = p.z ∧ bitOf (pImage b p) 0 = p.c := by
  rcases p with ⟨n, v, b', d, i, z, c⟩
  simp only [pImage]
  clear b'
  revert b n v d i z c
  decide

@[simp] theorem bitOf_pImage_7 (b : Bool) (p : Status) : bitOf (pImage b p) 7 = p.n := (bitOf_pImage b p).1
@[simp] theorem bitOf_pImage_6 (b : Bool) (p : Status) : bitOf (pImage b p) 6 = p.v := (bitOf_pImage b p).2.1
@[simp] theorem bitOf_pImage_5 (b : Bool) (p : Status) : bitOf (pImage b p) 5 = true := (bitOf_pImage b p).2.2.1
@[simp] theorem bitOf_pImage_4 (b : Bool) (p : Status) : bitOf (pImage b p) 4 = b := (bitOf_pImage b p).2.2.2.1
@[simp] theorem bitOf_pImage_3 (b : Bool) (p : Status) : bitOf (pImage b p) 3 = p.d := (bitOf_pImage b p).2.2.2.2.1
@[simp] theorem bitOf_pImage_2 (b : Bool) (p : Status) : bitOf (pImage b p) 2 = p.i := (bitOf_pImage b p).2.2.2.2.2.1
@[simp] theorem bitOf_pImage_1 (b : Bool) (p : Status) : bitOf (pImage b p) 1 = p.z := (bitOf_pImage b p).2.2.2.2.2.2.1
@[simp] theorem bitOf_pImage_0 (b : Bool) (p : Status) : bitOf (pImage b p) 0 = p.c := (bitOf_pImage b p).2.2.2.2.2.2.2

/-! ## The read-modify-write operations (R160, R161, R166 to R169) -/

@[simp] theorem incOp_fst (m : Byte) (p : Status) : (incOp m p).1 = m + 1#8 := rfl
@[simp] theorem incOp_snd (m : Byte) (p : Status) : (incOp m p).2 = setZN (m + 1#8) p := rfl
@[simp] theorem decOp_fst (m : Byte) (p : Status) : (decOp m p).1 = m - 1#8 := rfl
@[simp] theorem decOp_snd (m : Byte) (p : Status) : (decOp m p).2 = setZN (m - 1#8) p := rfl
@[simp] theorem aslOp_fst (m : Byte) (p : Status) : (aslOp m p).1 = m <<< 1 := rfl
@[simp] theorem aslOp_snd (m : Byte) (p : Status) :
    (aslOp m p).2 = { setZN (m <<< 1) p with c := bitOf m 7 } := rfl
@[simp] theorem lsrOp_fst (m : Byte) (p : Status) : (lsrOp m p).1 = m >>> 1 := rfl
@[simp] theorem lsrOp_snd (m : Byte) (p : Status) :
    (lsrOp m p).2 = { setZN (m >>> 1) p with c := bitOf m 0 } := rfl

/-- ROL is the nine-bit rotation: the byte is `2 m + C` modulo 256 (R168). -/
theorem rolOp_fst (m : Byte) (p : Status) : (rolOp m p).1 = BitVec.ofNat 8 (2 * m.toNat + p.c.toNat) := by
  rcases p with ⟨n, v, b, d, i, z, c⟩
  cases c <;> revert m <;> simp only [rolOp] <;> decide

theorem rolOp_snd (m : Byte) (p : Status) :
    (rolOp m p).2 = { setZN (rolOp m p).1 p with c := bitOf m 7 } := rfl

/-- ROR is the nine-bit rotation: the byte is `m / 2 + 128 C` (R169). -/
theorem rorOp_fst (m : Byte) (p : Status) : (rorOp m p).1 = BitVec.ofNat 8 (m.toNat / 2 + 128 * p.c.toNat) := by
  rcases p with ⟨n, v, b, d, i, z, c⟩
  cases c <;> revert m <;> simp only [rorOp] <;> decide

theorem rorOp_snd (m : Byte) (p : Status) :
    (rorOp m p).2 = { setZN (rorOp m p).1 p with c := bitOf m 0 } := rfl

end Sys2Proof.Machine
end

