-- ==== Sys2Proof/Laws/Interrupts.lean ====
section
/-! SUPPORT. The interrupt entry and the return from it: everything each of them does (60_exceptions.md R220, R223;
46_flags_system.md R199). -/

namespace Sys2Proof.Machine

open Sys2Proof.Claims

/-! ## Stack slots -/

theorem stackSlot_zero (s : State) : stackSlot s 0 = s.stackAddr := by
  simp [stackSlot, State.stackAddr, Config.stackPage]

/-- An address outside page 1 is no stack slot. -/
theorem stackSlot_ne_of_page {v : Word} (h : hiByte v ≠ Config.stackPage) (sp : Byte) :
    mkWord Config.stackPage sp ≠ v := by
  rintro rfl; simp at h

/-- What the three pushes of an entry leave at every address. -/
theorem State.readMem_pushFrame (s : State) (ret : Word) (b : Bool) (a : Word) :
    (s.pushFrame ret b).readMem a =
      if mkWord Config.stackPage (s.sp - 1#8 - 1#8) = a then pImage b s.p
      else if mkWord Config.stackPage (s.sp - 1#8) = a then loByte ret
      else if mkWord Config.stackPage s.sp = a then hiByte ret else s.readMem a :=
  State.readMem_push3 s _ _ _ a

/-- A read outside page 1 is not changed by an entry's pushes. -/
theorem State.readMem_pushFrame_other (s : State) (ret : Word) (b : Bool) {a : Word}
    (h : hiByte a ≠ Config.stackPage) : (s.pushFrame ret b).readMem a = s.readMem a := by
  rw [State.readMem_pushFrame]
  simp [stackSlot_ne_of_page h]

/-! ## The entry -/

/-- Every field of the state after an entry whose vector lies outside the stack page. -/
theorem State.interruptEntry_eq (s : State) {vector : Word} (ret : Word) (b : Bool) (cycles : Nat)
    (h0 : hiByte vector ≠ Config.stackPage) (h1 : hiByte (vector + 1#16) ≠ Config.stackPage) :
    s.interruptEntry vector ret b cycles =
      { s with mem := (s.interruptEntry vector ret b cycles).mem, sp := s.sp - 3#8, p := { s.p with i := true },
               pc := mkWord (s.readMem (vector + 1#16)) (s.readMem vector), cyc := s.cyc + cycles } := by
  have hpc : (s.interruptEntry vector ret b cycles).pc =
      mkWord (s.readMem (vector + 1#16)) (s.readMem vector) := by
    rw [State.interruptEntry_pc, State.read16, State.readMem_pushFrame_other s ret b h0,
      State.readMem_pushFrame_other s ret b h1]
  have ha := State.interruptEntry_a s vector ret b cycles
  have hx := State.interruptEntry_x s vector ret b cycles
  have hy := State.interruptEntry_y s vector ret b cycles
  have hsp : (s.interruptEntry vector ret b cycles).sp = s.sp - 3#8 := by
    rw [State.interruptEntry_sp]; bv_omega
  have hp := State.interruptEntry_p s vector ret b cycles
  have hc := State.interruptEntry_cyc s vector ret b cycles
  have hn := State.interruptEntry_nmiPending s vector ret b cycles
  have hi := State.interruptEntry_irqLine s vector ret b cycles
  generalize s.interruptEntry vector ret b cycles = t at *
  cases t
  simp_all

/-- The bytes an entry leaves in memory. -/
theorem State.interruptEntry_pushed (s : State) (vector ret : Word) (b : Bool) (cycles : Nat) :
    ThreePushed s (s.interruptEntry vector ret b cycles) (hiByte ret) (loByte ret) (pImage b s.p) := by
  have r : ∀ a, (s.interruptEntry vector ret b cycles).readMem a = (s.pushFrame ret b).readMem a :=
    fun a => State.readMem_congr (State.interruptEntry_mem s vector ret b cycles) a
  have e1 : stackSlot s 1 = mkWord Config.stackPage (s.sp - 1#8) := rfl
  have e2 : stackSlot s 2 = mkWord Config.stackPage (s.sp - 1#8 - 1#8) := by
    show mkWord _ (s.sp - 2#8) = _
    congr 1; bv_omega
  have n1 : s.sp - 1#8 ≠ s.sp := by bv_omega
  have n2 : s.sp - 1#8 - 1#8 ≠ s.sp := by bv_omega
  have n3 : s.sp - 1#8 - 1#8 ≠ s.sp - 1#8 := by bv_omega
  have e0 : stackSlot s 0 = mkWord Config.stackPage s.sp := stackSlot_zero s
  refine ⟨?_, ?_, ?_, fun a h0 h1 h2 => ?_⟩ <;> rw [r, State.readMem_pushFrame]
  · rw [e0, if_neg (stackSlot_ne n2), if_neg (stackSlot_ne n1), if_pos rfl]
  · rw [e1, if_neg (stackSlot_ne n3), if_pos rfl]
  · rw [e2, if_pos rfl]
  · rw [if_neg (e2 ▸ Ne.symm h2), if_neg (e1 ▸ Ne.symm h1), if_neg (e0 ▸ Ne.symm h0)]

/-- Both halves of an entry's effect, as the statements write it. -/
theorem State.interruptEntry_effect (s : State) {vector : Word} (ret : Word) (b : Bool) (cycles : Nat)
    (h0 : hiByte vector ≠ Config.stackPage) (h1 : hiByte (vector + 1#16) ≠ Config.stackPage) :
    EntryEffect s (s.interruptEntry vector ret b cycles) vector (vector + 1#16) ret b cycles := by
  refine ⟨?_, s.interruptEntry_pushed vector ret b cycles⟩
  rw [State.interruptEntry_nmiPending]
  exact s.interruptEntry_eq ret b cycles h0 h1

/-! ## The return -/

/-- Every field of the state after the return from an interrupt (R199). -/
theorem State.interruptReturn_eq (s : State) (cycles : Nat) :
    s.interruptReturn cycles =
      { s with sp := s.sp + 3#8, p := pLoad (s.readMem (mkWord Config.stackPage (s.sp + 1#8))) s.p,
               pc := mkWord (s.readMem (mkWord Config.stackPage (s.sp + 3#8)))
                 (s.readMem (mkWord Config.stackPage (s.sp + 2#8))),
               cyc := s.cyc + cycles } := by
  have e2 : s.sp + 1#8 + 1#8 = s.sp + 2#8 := by bv_omega
  have e3 : s.sp + 1#8 + 1#8 + 1#8 = s.sp + 3#8 := by bv_omega
  rw [← e2, ← e3]
  rfl

end Sys2Proof.Machine
end

