-- ==== Sys2Proof/Laws/Table.lean ====
section
/-! SUPPORT. The table entry of each instruction's opcode: constructor, base cycles, penalty (30_encoding.md R83, R84). -/

namespace Sys2Proof.Machine

@[simp] theorem instrEntry_ldaImm (b : Byte) : instrEntry (.ldaImm b) = .byte .ldaImm 2 .none :=
  (rfl : opcodeEntry 0xA9#8 = _)
@[simp] theorem instrEntry_ldaZp (z : Byte) : instrEntry (.ldaZp z) = .byte .ldaZp 3 .none :=
  (rfl : opcodeEntry 0xA5#8 = _)
@[simp] theorem instrEntry_ldaZpx (z : Byte) : instrEntry (.ldaZpx z) = .byte .ldaZpx 4 .none :=
  (rfl : opcodeEntry 0xB5#8 = _)
@[simp] theorem instrEntry_ldaAbs (w : Word) : instrEntry (.ldaAbs w) = .word .ldaAbs 4 .none :=
  (rfl : opcodeEntry 0xAD#8 = _)
@[simp] theorem instrEntry_ldaAbsx (w : Word) : instrEntry (.ldaAbsx w) = .word .ldaAbsx 4 .pageCross :=
  (rfl : opcodeEntry 0xBD#8 = _)
@[simp] theorem instrEntry_ldaAbsy (w : Word) : instrEntry (.ldaAbsy w) = .word .ldaAbsy 4 .pageCross :=
  (rfl : opcodeEntry 0xB9#8 = _)
@[simp] theorem instrEntry_ldaIndx (z : Byte) : instrEntry (.ldaIndx z) = .byte .ldaIndx 6 .none :=
  (rfl : opcodeEntry 0xA1#8 = _)
@[simp] theorem instrEntry_ldaIndy (z : Byte) : instrEntry (.ldaIndy z) = .byte .ldaIndy 5 .pageCross :=
  (rfl : opcodeEntry 0xB1#8 = _)
@[simp] theorem instrEntry_ldxImm (b : Byte) : instrEntry (.ldxImm b) = .byte .ldxImm 2 .none :=
  (rfl : opcodeEntry 0xA2#8 = _)
@[simp] theorem instrEntry_ldxZp (z : Byte) : instrEntry (.ldxZp z) = .byte .ldxZp 3 .none :=
  (rfl : opcodeEntry 0xA6#8 = _)
@[simp] theorem instrEntry_ldxZpy (z : Byte) : instrEntry (.ldxZpy z) = .byte .ldxZpy 4 .none :=
  (rfl : opcodeEntry 0xB6#8 = _)
@[simp] theorem instrEntry_ldxAbs (w : Word) : instrEntry (.ldxAbs w) = .word .ldxAbs 4 .none :=
  (rfl : opcodeEntry 0xAE#8 = _)
@[simp] theorem instrEntry_ldxAbsy (w : Word) : instrEntry (.ldxAbsy w) = .word .ldxAbsy 4 .pageCross :=
  (rfl : opcodeEntry 0xBE#8 = _)
@[simp] theorem instrEntry_ldyImm (b : Byte) : instrEntry (.ldyImm b) = .byte .ldyImm 2 .none :=
  (rfl : opcodeEntry 0xA0#8 = _)
@[simp] theorem instrEntry_ldyZp (z : Byte) : instrEntry (.ldyZp z) = .byte .ldyZp 3 .none :=
  (rfl : opcodeEntry 0xA4#8 = _)
@[simp] theorem instrEntry_ldyZpx (z : Byte) : instrEntry (.ldyZpx z) = .byte .ldyZpx 4 .none :=
  (rfl : opcodeEntry 0xB4#8 = _)
@[simp] theorem instrEntry_ldyAbs (w : Word) : instrEntry (.ldyAbs w) = .word .ldyAbs 4 .none :=
  (rfl : opcodeEntry 0xAC#8 = _)
@[simp] theorem instrEntry_ldyAbsx (w : Word) : instrEntry (.ldyAbsx w) = .word .ldyAbsx 4 .pageCross :=
  (rfl : opcodeEntry 0xBC#8 = _)
@[simp] theorem instrEntry_staZp (z : Byte) : instrEntry (.staZp z) = .byte .staZp 3 .none :=
  (rfl : opcodeEntry 0x85#8 = _)
@[simp] theorem instrEntry_staZpx (z : Byte) : instrEntry (.staZpx z) = .byte .staZpx 4 .none :=
  (rfl : opcodeEntry 0x95#8 = _)
@[simp] theorem instrEntry_staAbs (w : Word) : instrEntry (.staAbs w) = .word .staAbs 4 .none :=
  (rfl : opcodeEntry 0x8D#8 = _)
@[simp] theorem instrEntry_staAbsx (w : Word) : instrEntry (.staAbsx w) = .word .staAbsx 5 .none :=
  (rfl : opcodeEntry 0x9D#8 = _)
@[simp] theorem instrEntry_staAbsy (w : Word) : instrEntry (.staAbsy w) = .word .staAbsy 5 .none :=
  (rfl : opcodeEntry 0x99#8 = _)
@[simp] theorem instrEntry_staIndx (z : Byte) : instrEntry (.staIndx z) = .byte .staIndx 6 .none :=
  (rfl : opcodeEntry 0x81#8 = _)
@[simp] theorem instrEntry_staIndy (z : Byte) : instrEntry (.staIndy z) = .byte .staIndy 6 .none :=
  (rfl : opcodeEntry 0x91#8 = _)
@[simp] theorem instrEntry_stxZp (z : Byte) : instrEntry (.stxZp z) = .byte .stxZp 3 .none :=
  (rfl : opcodeEntry 0x86#8 = _)
@[simp] theorem instrEntry_stxZpy (z : Byte) : instrEntry (.stxZpy z) = .byte .stxZpy 4 .none :=
  (rfl : opcodeEntry 0x96#8 = _)
@[simp] theorem instrEntry_stxAbs (w : Word) : instrEntry (.stxAbs w) = .word .stxAbs 4 .none :=
  (rfl : opcodeEntry 0x8E#8 = _)
@[simp] theorem instrEntry_styZp (z : Byte) : instrEntry (.styZp z) = .byte .styZp 3 .none :=
  (rfl : opcodeEntry 0x84#8 = _)
@[simp] theorem instrEntry_styZpx (z : Byte) : instrEntry (.styZpx z) = .byte .styZpx 4 .none :=
  (rfl : opcodeEntry 0x94#8 = _)
@[simp] theorem instrEntry_styAbs (w : Word) : instrEntry (.styAbs w) = .word .styAbs 4 .none :=
  (rfl : opcodeEntry 0x8C#8 = _)
@[simp] theorem instrEntry_tax : instrEntry .tax = .implied .tax 2 :=
  (rfl : opcodeEntry 0xAA#8 = _)
@[simp] theorem instrEntry_tay : instrEntry .tay = .implied .tay 2 :=
  (rfl : opcodeEntry 0xA8#8 = _)
@[simp] theorem instrEntry_txa : instrEntry .txa = .implied .txa 2 :=
  (rfl : opcodeEntry 0x8A#8 = _)
@[simp] theorem instrEntry_tya : instrEntry .tya = .implied .tya 2 :=
  (rfl : opcodeEntry 0x98#8 = _)
@[simp] theorem instrEntry_tsx : instrEntry .tsx = .implied .tsx 2 :=
  (rfl : opcodeEntry 0xBA#8 = _)
@[simp] theorem instrEntry_txs : instrEntry .txs = .implied .txs 2 :=
  (rfl : opcodeEntry 0x9A#8 = _)
@[simp] theorem instrEntry_pha : instrEntry .pha = .implied .pha 3 :=
  (rfl : opcodeEntry 0x48#8 = _)
@[simp] theorem instrEntry_php : instrEntry .php = .implied .php 3 :=
  (rfl : opcodeEntry 0x08#8 = _)
@[simp] theorem instrEntry_pla : instrEntry .pla = .implied .pla 4 :=
  (rfl : opcodeEntry 0x68#8 = _)
@[simp] theorem instrEntry_plp : instrEntry .plp = .implied .plp 4 :=
  (rfl : opcodeEntry 0x28#8 = _)
@[simp] theorem instrEntry_andImm (b : Byte) : instrEntry (.andImm b) = .byte .andImm 2 .none :=
  (rfl : opcodeEntry 0x29#8 = _)
@[simp] theorem instrEntry_andZp (z : Byte) : instrEntry (.andZp z) = .byte .andZp 3 .none :=
  (rfl : opcodeEntry 0x25#8 = _)
@[simp] theorem instrEntry_andZpx (z : Byte) : instrEntry (.andZpx z) = .byte .andZpx 4 .none :=
  (rfl : opcodeEntry 0x35#8 = _)
@[simp] theorem instrEntry_andAbs (w : Word) : instrEntry (.andAbs w) = .word .andAbs 4 .none :=
  (rfl : opcodeEntry 0x2D#8 = _)
@[simp] theorem instrEntry_andAbsx (w : Word) : instrEntry (.andAbsx w) = .word .andAbsx 4 .pageCross :=
  (rfl : opcodeEntry 0x3D#8 = _)
@[simp] theorem instrEntry_andAbsy (w : Word) : instrEntry (.andAbsy w) = .word .andAbsy 4 .pageCross :=
  (rfl : opcodeEntry 0x39#8 = _)
@[simp] theorem instrEntry_andIndx (z : Byte) : instrEntry (.andIndx z) = .byte .andIndx 6 .none :=
  (rfl : opcodeEntry 0x21#8 = _)
@[simp] theorem instrEntry_andIndy (z : Byte) : instrEntry (.andIndy z) = .byte .andIndy 5 .pageCross :=
  (rfl : opcodeEntry 0x31#8 = _)
@[simp] theorem instrEntry_oraImm (b : Byte) : instrEntry (.oraImm b) = .byte .oraImm 2 .none :=
  (rfl : opcodeEntry 0x09#8 = _)
@[simp] theorem instrEntry_oraZp (z : Byte) : instrEntry (.oraZp z) = .byte .oraZp 3 .none :=
  (rfl : opcodeEntry 0x05#8 = _)
@[simp] theorem instrEntry_oraZpx (z : Byte) : instrEntry (.oraZpx z) = .byte .oraZpx 4 .none :=
  (rfl : opcodeEntry 0x15#8 = _)
@[simp] theorem instrEntry_oraAbs (w : Word) : instrEntry (.oraAbs w) = .word .oraAbs 4 .none :=
  (rfl : opcodeEntry 0x0D#8 = _)
@[simp] theorem instrEntry_oraAbsx (w : Word) : instrEntry (.oraAbsx w) = .word .oraAbsx 4 .pageCross :=
  (rfl : opcodeEntry 0x1D#8 = _)
@[simp] theorem instrEntry_oraAbsy (w : Word) : instrEntry (.oraAbsy w) = .word .oraAbsy 4 .pageCross :=
  (rfl : opcodeEntry 0x19#8 = _)
@[simp] theorem instrEntry_oraIndx (z : Byte) : instrEntry (.oraIndx z) = .byte .oraIndx 6 .none :=
  (rfl : opcodeEntry 0x01#8 = _)
@[simp] theorem instrEntry_oraIndy (z : Byte) : instrEntry (.oraIndy z) = .byte .oraIndy 5 .pageCross :=
  (rfl : opcodeEntry 0x11#8 = _)
@[simp] theorem instrEntry_eorImm (b : Byte) : instrEntry (.eorImm b) = .byte .eorImm 2 .none :=
  (rfl : opcodeEntry 0x49#8 = _)
@[simp] theorem instrEntry_eorZp (z : Byte) : instrEntry (.eorZp z) = .byte .eorZp 3 .none :=
  (rfl : opcodeEntry 0x45#8 = _)
@[simp] theorem instrEntry_eorZpx (z : Byte) : instrEntry (.eorZpx z) = .byte .eorZpx 4 .none :=
  (rfl : opcodeEntry 0x55#8 = _)
@[simp] theorem instrEntry_eorAbs (w : Word) : instrEntry (.eorAbs w) = .word .eorAbs 4 .none :=
  (rfl : opcodeEntry 0x4D#8 = _)
@[simp] theorem instrEntry_eorAbsx (w : Word) : instrEntry (.eorAbsx w) = .word .eorAbsx 4 .pageCross :=
  (rfl : opcodeEntry 0x5D#8 = _)
@[simp] theorem instrEntry_eorAbsy (w : Word) : instrEntry (.eorAbsy w) = .word .eorAbsy 4 .pageCross :=
  (rfl : opcodeEntry 0x59#8 = _)
@[simp] theorem instrEntry_eorIndx (z : Byte) : instrEntry (.eorIndx z) = .byte .eorIndx 6 .none :=
  (rfl : opcodeEntry 0x41#8 = _)
@[simp] theorem instrEntry_eorIndy (z : Byte) : instrEntry (.eorIndy z) = .byte .eorIndy 5 .pageCross :=
  (rfl : opcodeEntry 0x51#8 = _)
@[simp] theorem instrEntry_bitZp (z : Byte) : instrEntry (.bitZp z) = .byte .bitZp 3 .none :=
  (rfl : opcodeEntry 0x24#8 = _)
@[simp] theorem instrEntry_bitAbs (w : Word) : instrEntry (.bitAbs w) = .word .bitAbs 4 .none :=
  (rfl : opcodeEntry 0x2C#8 = _)
@[simp] theorem instrEntry_adcImm (b : Byte) : instrEntry (.adcImm b) = .byte .adcImm 2 .none :=
  (rfl : opcodeEntry 0x69#8 = _)
@[simp] theorem instrEntry_adcZp (z : Byte) : instrEntry (.adcZp z) = .byte .adcZp 3 .none :=
  (rfl : opcodeEntry 0x65#8 = _)
@[simp] theorem instrEntry_adcZpx (z : Byte) : instrEntry (.adcZpx z) = .byte .adcZpx 4 .none :=
  (rfl : opcodeEntry 0x75#8 = _)
@[simp] theorem instrEntry_adcAbs (w : Word) : instrEntry (.adcAbs w) = .word .adcAbs 4 .none :=
  (rfl : opcodeEntry 0x6D#8 = _)
@[simp] theorem instrEntry_adcAbsx (w : Word) : instrEntry (.adcAbsx w) = .word .adcAbsx 4 .pageCross :=
  (rfl : opcodeEntry 0x7D#8 = _)
@[simp] theorem instrEntry_adcAbsy (w : Word) : instrEntry (.adcAbsy w) = .word .adcAbsy 4 .pageCross :=
  (rfl : opcodeEntry 0x79#8 = _)
@[simp] theorem instrEntry_adcIndx (z : Byte) : instrEntry (.adcIndx z) = .byte .adcIndx 6 .none :=
  (rfl : opcodeEntry 0x61#8 = _)
@[simp] theorem instrEntry_adcIndy (z : Byte) : instrEntry (.adcIndy z) = .byte .adcIndy 5 .pageCross :=
  (rfl : opcodeEntry 0x71#8 = _)
@[simp] theorem instrEntry_sbcImm (b : Byte) : instrEntry (.sbcImm b) = .byte .sbcImm 2 .none :=
  (rfl : opcodeEntry 0xE9#8 = _)
@[simp] theorem instrEntry_sbcZp (z : Byte) : instrEntry (.sbcZp z) = .byte .sbcZp 3 .none :=
  (rfl : opcodeEntry 0xE5#8 = _)
@[simp] theorem instrEntry_sbcZpx (z : Byte) : instrEntry (.sbcZpx z) = .byte .sbcZpx 4 .none :=
  (rfl : opcodeEntry 0xF5#8 = _)
@[simp] theorem instrEntry_sbcAbs (w : Word) : instrEntry (.sbcAbs w) = .word .sbcAbs 4 .none :=
  (rfl : opcodeEntry 0xED#8 = _)
@[simp] theorem instrEntry_sbcAbsx (w : Word) : instrEntry (.sbcAbsx w) = .word .sbcAbsx 4 .pageCross :=
  (rfl : opcodeEntry 0xFD#8 = _)
@[simp] theorem instrEntry_sbcAbsy (w : Word) : instrEntry (.sbcAbsy w) = .word .sbcAbsy 4 .pageCross :=
  (rfl : opcodeEntry 0xF9#8 = _)
@[simp] theorem instrEntry_sbcIndx (z : Byte) : instrEntry (.sbcIndx z) = .byte .sbcIndx 6 .none :=
  (rfl : opcodeEntry 0xE1#8 = _)
@[simp] theorem instrEntry_sbcIndy (z : Byte) : instrEntry (.sbcIndy z) = .byte .sbcIndy 5 .pageCross :=
  (rfl : opcodeEntry 0xF1#8 = _)
@[simp] theorem instrEntry_cmpImm (b : Byte) : instrEntry (.cmpImm b) = .byte .cmpImm 2 .none :=
  (rfl : opcodeEntry 0xC9#8 = _)
@[simp] theorem instrEntry_cmpZp (z : Byte) : instrEntry (.cmpZp z) = .byte .cmpZp 3 .none :=
  (rfl : opcodeEntry 0xC5#8 = _)
@[simp] theorem instrEntry_cmpZpx (z : Byte) : instrEntry (.cmpZpx z) = .byte .cmpZpx 4 .none :=
  (rfl : opcodeEntry 0xD5#8 = _)
@[simp] theorem instrEntry_cmpAbs (w : Word) : instrEntry (.cmpAbs w) = .word .cmpAbs 4 .none :=
  (rfl : opcodeEntry 0xCD#8 = _)
@[simp] theorem instrEntry_cmpAbsx (w : Word) : instrEntry (.cmpAbsx w) = .word .cmpAbsx 4 .pageCross :=
  (rfl : opcodeEntry 0xDD#8 = _)
@[simp] theorem instrEntry_cmpAbsy (w : Word) : instrEntry (.cmpAbsy w) = .word .cmpAbsy 4 .pageCross :=
  (rfl : opcodeEntry 0xD9#8 = _)
@[simp] theorem instrEntry_cmpIndx (z : Byte) : instrEntry (.cmpIndx z) = .byte .cmpIndx 6 .none :=
  (rfl : opcodeEntry 0xC1#8 = _)
@[simp] theorem instrEntry_cmpIndy (z : Byte) : instrEntry (.cmpIndy z) = .byte .cmpIndy 5 .pageCross :=
  (rfl : opcodeEntry 0xD1#8 = _)
@[simp] theorem instrEntry_cpxImm (b : Byte) : instrEntry (.cpxImm b) = .byte .cpxImm 2 .none :=
  (rfl : opcodeEntry 0xE0#8 = _)
@[simp] theorem instrEntry_cpxZp (z : Byte) : instrEntry (.cpxZp z) = .byte .cpxZp 3 .none :=
  (rfl : opcodeEntry 0xE4#8 = _)
@[simp] theorem instrEntry_cpxAbs (w : Word) : instrEntry (.cpxAbs w) = .word .cpxAbs 4 .none :=
  (rfl : opcodeEntry 0xEC#8 = _)
@[simp] theorem instrEntry_cpyImm (b : Byte) : instrEntry (.cpyImm b) = .byte .cpyImm 2 .none :=
  (rfl : opcodeEntry 0xC0#8 = _)
@[simp] theorem instrEntry_cpyZp (z : Byte) : instrEntry (.cpyZp z) = .byte .cpyZp 3 .none :=
  (rfl : opcodeEntry 0xC4#8 = _)
@[simp] theorem instrEntry_cpyAbs (w : Word) : instrEntry (.cpyAbs w) = .word .cpyAbs 4 .none :=
  (rfl : opcodeEntry 0xCC#8 = _)
@[simp] theorem instrEntry_incZp (z : Byte) : instrEntry (.incZp z) = .byte .incZp 5 .none :=
  (rfl : opcodeEntry 0xE6#8 = _)
@[simp] theorem instrEntry_incZpx (z : Byte) : instrEntry (.incZpx z) = .byte .incZpx 6 .none :=
  (rfl : opcodeEntry 0xF6#8 = _)
@[simp] theorem instrEntry_incAbs (w : Word) : instrEntry (.incAbs w) = .word .incAbs 6 .none :=
  (rfl : opcodeEntry 0xEE#8 = _)
@[simp] theorem instrEntry_incAbsx (w : Word) : instrEntry (.incAbsx w) = .word .incAbsx 7 .none :=
  (rfl : opcodeEntry 0xFE#8 = _)
@[simp] theorem instrEntry_decZp (z : Byte) : instrEntry (.decZp z) = .byte .decZp 5 .none :=
  (rfl : opcodeEntry 0xC6#8 = _)
@[simp] theorem instrEntry_decZpx (z : Byte) : instrEntry (.decZpx z) = .byte .decZpx 6 .none :=
  (rfl : opcodeEntry 0xD6#8 = _)
@[simp] theorem instrEntry_decAbs (w : Word) : instrEntry (.decAbs w) = .word .decAbs 6 .none :=
  (rfl : opcodeEntry 0xCE#8 = _)
@[simp] theorem instrEntry_decAbsx (w : Word) : instrEntry (.decAbsx w) = .word .decAbsx 7 .none :=
  (rfl : opcodeEntry 0xDE#8 = _)
@[simp] theorem instrEntry_inx : instrEntry .inx = .implied .inx 2 :=
  (rfl : opcodeEntry 0xE8#8 = _)
@[simp] theorem instrEntry_iny : instrEntry .iny = .implied .iny 2 :=
  (rfl : opcodeEntry 0xC8#8 = _)
@[simp] theorem instrEntry_dex : instrEntry .dex = .implied .dex 2 :=
  (rfl : opcodeEntry 0xCA#8 = _)
@[simp] theorem instrEntry_dey : instrEntry .dey = .implied .dey 2 :=
  (rfl : opcodeEntry 0x88#8 = _)
@[simp] theorem instrEntry_aslAcc : instrEntry .aslAcc = .implied .aslAcc 2 :=
  (rfl : opcodeEntry 0x0A#8 = _)
@[simp] theorem instrEntry_aslZp (z : Byte) : instrEntry (.aslZp z) = .byte .aslZp 5 .none :=
  (rfl : opcodeEntry 0x06#8 = _)
@[simp] theorem instrEntry_aslZpx (z : Byte) : instrEntry (.aslZpx z) = .byte .aslZpx 6 .none :=
  (rfl : opcodeEntry 0x16#8 = _)
@[simp] theorem instrEntry_aslAbs (w : Word) : instrEntry (.aslAbs w) = .word .aslAbs 6 .none :=
  (rfl : opcodeEntry 0x0E#8 = _)
@[simp] theorem instrEntry_aslAbsx (w : Word) : instrEntry (.aslAbsx w) = .word .aslAbsx 7 .none :=
  (rfl : opcodeEntry 0x1E#8 = _)
@[simp] theorem instrEntry_lsrAcc : instrEntry .lsrAcc = .implied .lsrAcc 2 :=
  (rfl : opcodeEntry 0x4A#8 = _)
@[simp] theorem instrEntry_lsrZp (z : Byte) : instrEntry (.lsrZp z) = .byte .lsrZp 5 .none :=
  (rfl : opcodeEntry 0x46#8 = _)
@[simp] theorem instrEntry_lsrZpx (z : Byte) : instrEntry (.lsrZpx z) = .byte .lsrZpx 6 .none :=
  (rfl : opcodeEntry 0x56#8 = _)
@[simp] theorem instrEntry_lsrAbs (w : Word) : instrEntry (.lsrAbs w) = .word .lsrAbs 6 .none :=
  (rfl : opcodeEntry 0x4E#8 = _)
@[simp] theorem instrEntry_lsrAbsx (w : Word) : instrEntry (.lsrAbsx w) = .word .lsrAbsx 7 .none :=
  (rfl : opcodeEntry 0x5E#8 = _)
@[simp] theorem instrEntry_rolAcc : instrEntry .rolAcc = .implied .rolAcc 2 :=
  (rfl : opcodeEntry 0x2A#8 = _)
@[simp] theorem instrEntry_rolZp (z : Byte) : instrEntry (.rolZp z) = .byte .rolZp 5 .none :=
  (rfl : opcodeEntry 0x26#8 = _)
@[simp] theorem instrEntry_rolZpx (z : Byte) : instrEntry (.rolZpx z) = .byte .rolZpx 6 .none :=
  (rfl : opcodeEntry 0x36#8 = _)
@[simp] theorem instrEntry_rolAbs (w : Word) : instrEntry (.rolAbs w) = .word .rolAbs 6 .none :=
  (rfl : opcodeEntry 0x2E#8 = _)
@[simp] theorem instrEntry_rolAbsx (w : Word) : instrEntry (.rolAbsx w) = .word .rolAbsx 7 .none :=
  (rfl : opcodeEntry 0x3E#8 = _)
@[simp] theorem instrEntry_rorAcc : instrEntry .rorAcc = .implied .rorAcc 2 :=
  (rfl : opcodeEntry 0x6A#8 = _)
@[simp] theorem instrEntry_rorZp (z : Byte) : instrEntry (.rorZp z) = .byte .rorZp 5 .none :=
  (rfl : opcodeEntry 0x66#8 = _)
@[simp] theorem instrEntry_rorZpx (z : Byte) : instrEntry (.rorZpx z) = .byte .rorZpx 6 .none :=
  (rfl : opcodeEntry 0x76#8 = _)
@[simp] theorem instrEntry_rorAbs (w : Word) : instrEntry (.rorAbs w) = .word .rorAbs 6 .none :=
  (rfl : opcodeEntry 0x6E#8 = _)
@[simp] theorem instrEntry_rorAbsx (w : Word) : instrEntry (.rorAbsx w) = .word .rorAbsx 7 .none :=
  (rfl : opcodeEntry 0x7E#8 = _)
@[simp] theorem instrEntry_jmpAbs (w : Word) : instrEntry (.jmpAbs w) = .word .jmpAbs 3 .none :=
  (rfl : opcodeEntry 0x4C#8 = _)
@[simp] theorem instrEntry_jmpInd (w : Word) : instrEntry (.jmpInd w) = .word .jmpInd 5 .none :=
  (rfl : opcodeEntry 0x6C#8 = _)
@[simp] theorem instrEntry_jsr (w : Word) : instrEntry (.jsr w) = .word .jsr 6 .none :=
  (rfl : opcodeEntry 0x20#8 = _)
@[simp] theorem instrEntry_rts : instrEntry .rts = .implied .rts 6 :=
  (rfl : opcodeEntry 0x60#8 = _)
@[simp] theorem instrEntry_bcc (d : Byte) : instrEntry (.bcc d) = .byte .bcc 2 .branch :=
  (rfl : opcodeEntry 0x90#8 = _)
@[simp] theorem instrEntry_bcs (d : Byte) : instrEntry (.bcs d) = .byte .bcs 2 .branch :=
  (rfl : opcodeEntry 0xB0#8 = _)
@[simp] theorem instrEntry_beq (d : Byte) : instrEntry (.beq d) = .byte .beq 2 .branch :=
  (rfl : opcodeEntry 0xF0#8 = _)
@[simp] theorem instrEntry_bne (d : Byte) : instrEntry (.bne d) = .byte .bne 2 .branch :=
  (rfl : opcodeEntry 0xD0#8 = _)
@[simp] theorem instrEntry_bmi (d : Byte) : instrEntry (.bmi d) = .byte .bmi 2 .branch :=
  (rfl : opcodeEntry 0x30#8 = _)
@[simp] theorem instrEntry_bpl (d : Byte) : instrEntry (.bpl d) = .byte .bpl 2 .branch :=
  (rfl : opcodeEntry 0x10#8 = _)
@[simp] theorem instrEntry_bvc (d : Byte) : instrEntry (.bvc d) = .byte .bvc 2 .branch :=
  (rfl : opcodeEntry 0x50#8 = _)
@[simp] theorem instrEntry_bvs (d : Byte) : instrEntry (.bvs d) = .byte .bvs 2 .branch :=
  (rfl : opcodeEntry 0x70#8 = _)
@[simp] theorem instrEntry_clc : instrEntry .clc = .implied .clc 2 :=
  (rfl : opcodeEntry 0x18#8 = _)
@[simp] theorem instrEntry_sec : instrEntry .sec = .implied .sec 2 :=
  (rfl : opcodeEntry 0x38#8 = _)
@[simp] theorem instrEntry_cli : instrEntry .cli = .implied .cli 2 :=
  (rfl : opcodeEntry 0x58#8 = _)
@[simp] theorem instrEntry_sei : instrEntry .sei = .implied .sei 2 :=
  (rfl : opcodeEntry 0x78#8 = _)
@[simp] theorem instrEntry_cld : instrEntry .cld = .implied .cld 2 :=
  (rfl : opcodeEntry 0xD8#8 = _)
@[simp] theorem instrEntry_sed : instrEntry .sed = .implied .sed 2 :=
  (rfl : opcodeEntry 0xF8#8 = _)
@[simp] theorem instrEntry_clv : instrEntry .clv = .implied .clv 2 :=
  (rfl : opcodeEntry 0xB8#8 = _)
@[simp] theorem instrEntry_nop : instrEntry .nop = .implied .nop 2 :=
  (rfl : opcodeEntry 0xEA#8 = _)
@[simp] theorem instrEntry_brk : instrEntry .brk = .implied .brk 7 :=
  (rfl : opcodeEntry 0x00#8 = _)
@[simp] theorem instrEntry_rti : instrEntry .rti = .implied .rti 6 :=
  (rfl : opcodeEntry 0x40#8 = _)

end Sys2Proof.Machine
end

