-- ==== Sys2Proof/Laws/PerInstr.lean ====
section
/-! SUPPORT. The per-instruction family: the length of an instruction's encoding (30_encoding.md R80,
40_addressing_modes.md R118). One lemma for each constructor. -/

namespace Sys2Proof.Laws.EncodedLength

open Sys2Proof.Machine

/-- The encoding has one byte more than the mode consumes, and begins with a byte whose table entry asks for exactly
those operand bytes; an undefined byte that is listed has an undefined entry. -/
def Statement (i : Instr) : Prop :=
  (encode i).length = 1 + (instrOperand i).bytesConsumed ∧
    (i.wellFormed = true → (instrEntry i).operandBytes = (instrOperand i).bytesConsumed)

theorem ldaImm (b : Byte) : Statement (.ldaImm b) := ⟨rfl, fun _ => by rw [instrEntry_ldaImm]; rfl⟩
theorem ldaZp (z : Byte) : Statement (.ldaZp z) := ⟨rfl, fun _ => by rw [instrEntry_ldaZp]; rfl⟩
theorem ldaZpx (z : Byte) : Statement (.ldaZpx z) := ⟨rfl, fun _ => by rw [instrEntry_ldaZpx]; rfl⟩
theorem ldaAbs (w : Word) : Statement (.ldaAbs w) := ⟨rfl, fun _ => by rw [instrEntry_ldaAbs]; rfl⟩
theorem ldaAbsx (w : Word) : Statement (.ldaAbsx w) := ⟨rfl, fun _ => by rw [instrEntry_ldaAbsx]; rfl⟩
theorem ldaAbsy (w : Word) : Statement (.ldaAbsy w) := ⟨rfl, fun _ => by rw [instrEntry_ldaAbsy]; rfl⟩
theorem ldaIndx (z : Byte) : Statement (.ldaIndx z) := ⟨rfl, fun _ => by rw [instrEntry_ldaIndx]; rfl⟩
theorem ldaIndy (z : Byte) : Statement (.ldaIndy z) := ⟨rfl, fun _ => by rw [instrEntry_ldaIndy]; rfl⟩
theorem ldxImm (b : Byte) : Statement (.ldxImm b) := ⟨rfl, fun _ => by rw [instrEntry_ldxImm]; rfl⟩
theorem ldxZp (z : Byte) : Statement (.ldxZp z) := ⟨rfl, fun _ => by rw [instrEntry_ldxZp]; rfl⟩
theorem ldxZpy (z : Byte) : Statement (.ldxZpy z) := ⟨rfl, fun _ => by rw [instrEntry_ldxZpy]; rfl⟩
theorem ldxAbs (w : Word) : Statement (.ldxAbs w) := ⟨rfl, fun _ => by rw [instrEntry_ldxAbs]; rfl⟩
theorem ldxAbsy (w : Word) : Statement (.ldxAbsy w) := ⟨rfl, fun _ => by rw [instrEntry_ldxAbsy]; rfl⟩
theorem ldyImm (b : Byte) : Statement (.ldyImm b) := ⟨rfl, fun _ => by rw [instrEntry_ldyImm]; rfl⟩
theorem ldyZp (z : Byte) : Statement (.ldyZp z) := ⟨rfl, fun _ => by rw [instrEntry_ldyZp]; rfl⟩
theorem ldyZpx (z : Byte) : Statement (.ldyZpx z) := ⟨rfl, fun _ => by rw [instrEntry_ldyZpx]; rfl⟩
theorem ldyAbs (w : Word) : Statement (.ldyAbs w) := ⟨rfl, fun _ => by rw [instrEntry_ldyAbs]; rfl⟩
theorem ldyAbsx (w : Word) : Statement (.ldyAbsx w) := ⟨rfl, fun _ => by rw [instrEntry_ldyAbsx]; rfl⟩
theorem staZp (z : Byte) : Statement (.staZp z) := ⟨rfl, fun _ => by rw [instrEntry_staZp]; rfl⟩
theorem staZpx (z : Byte) : Statement (.staZpx z) := ⟨rfl, fun _ => by rw [instrEntry_staZpx]; rfl⟩
theorem staAbs (w : Word) : Statement (.staAbs w) := ⟨rfl, fun _ => by rw [instrEntry_staAbs]; rfl⟩
theorem staAbsx (w : Word) : Statement (.staAbsx w) := ⟨rfl, fun _ => by rw [instrEntry_staAbsx]; rfl⟩
theorem staAbsy (w : Word) : Statement (.staAbsy w) := ⟨rfl, fun _ => by rw [instrEntry_staAbsy]; rfl⟩
theorem staIndx (z : Byte) : Statement (.staIndx z) := ⟨rfl, fun _ => by rw [instrEntry_staIndx]; rfl⟩
theorem staIndy (z : Byte) : Statement (.staIndy z) := ⟨rfl, fun _ => by rw [instrEntry_staIndy]; rfl⟩
theorem stxZp (z : Byte) : Statement (.stxZp z) := ⟨rfl, fun _ => by rw [instrEntry_stxZp]; rfl⟩
theorem stxZpy (z : Byte) : Statement (.stxZpy z) := ⟨rfl, fun _ => by rw [instrEntry_stxZpy]; rfl⟩
theorem stxAbs (w : Word) : Statement (.stxAbs w) := ⟨rfl, fun _ => by rw [instrEntry_stxAbs]; rfl⟩
theorem styZp (z : Byte) : Statement (.styZp z) := ⟨rfl, fun _ => by rw [instrEntry_styZp]; rfl⟩
theorem styZpx (z : Byte) : Statement (.styZpx z) := ⟨rfl, fun _ => by rw [instrEntry_styZpx]; rfl⟩
theorem styAbs (w : Word) : Statement (.styAbs w) := ⟨rfl, fun _ => by rw [instrEntry_styAbs]; rfl⟩
theorem tax : Statement .tax := ⟨rfl, fun _ => rfl⟩
theorem tay : Statement .tay := ⟨rfl, fun _ => rfl⟩
theorem txa : Statement .txa := ⟨rfl, fun _ => rfl⟩
theorem tya : Statement .tya := ⟨rfl, fun _ => rfl⟩
theorem tsx : Statement .tsx := ⟨rfl, fun _ => rfl⟩
theorem txs : Statement .txs := ⟨rfl, fun _ => rfl⟩
theorem pha : Statement .pha := ⟨rfl, fun _ => rfl⟩
theorem php : Statement .php := ⟨rfl, fun _ => rfl⟩
theorem pla : Statement .pla := ⟨rfl, fun _ => rfl⟩
theorem plp : Statement .plp := ⟨rfl, fun _ => rfl⟩
theorem andImm (b : Byte) : Statement (.andImm b) := ⟨rfl, fun _ => by rw [instrEntry_andImm]; rfl⟩
theorem andZp (z : Byte) : Statement (.andZp z) := ⟨rfl, fun _ => by rw [instrEntry_andZp]; rfl⟩
theorem andZpx (z : Byte) : Statement (.andZpx z) := ⟨rfl, fun _ => by rw [instrEntry_andZpx]; rfl⟩
theorem andAbs (w : Word) : Statement (.andAbs w) := ⟨rfl, fun _ => by rw [instrEntry_andAbs]; rfl⟩
theorem andAbsx (w : Word) : Statement (.andAbsx w) := ⟨rfl, fun _ => by rw [instrEntry_andAbsx]; rfl⟩
theorem andAbsy (w : Word) : Statement (.andAbsy w) := ⟨rfl, fun _ => by rw [instrEntry_andAbsy]; rfl⟩
theorem andIndx (z : Byte) : Statement (.andIndx z) := ⟨rfl, fun _ => by rw [instrEntry_andIndx]; rfl⟩
theorem andIndy (z : Byte) : Statement (.andIndy z) := ⟨rfl, fun _ => by rw [instrEntry_andIndy]; rfl⟩
theorem oraImm (b : Byte) : Statement (.oraImm b) := ⟨rfl, fun _ => by rw [instrEntry_oraImm]; rfl⟩
theorem oraZp (z : Byte) : Statement (.oraZp z) := ⟨rfl, fun _ => by rw [instrEntry_oraZp]; rfl⟩
theorem oraZpx (z : Byte) : Statement (.oraZpx z) := ⟨rfl, fun _ => by rw [instrEntry_oraZpx]; rfl⟩
theorem oraAbs (w : Word) : Statement (.oraAbs w) := ⟨rfl, fun _ => by rw [instrEntry_oraAbs]; rfl⟩
theorem oraAbsx (w : Word) : Statement (.oraAbsx w) := ⟨rfl, fun _ => by rw [instrEntry_oraAbsx]; rfl⟩
theorem oraAbsy (w : Word) : Statement (.oraAbsy w) := ⟨rfl, fun _ => by rw [instrEntry_oraAbsy]; rfl⟩
theorem oraIndx (z : Byte) : Statement (.oraIndx z) := ⟨rfl, fun _ => by rw [instrEntry_oraIndx]; rfl⟩
theorem oraIndy (z : Byte) : Statement (.oraIndy z) := ⟨rfl, fun _ => by rw [instrEntry_oraIndy]; rfl⟩
theorem eorImm (b : Byte) : Statement (.eorImm b) := ⟨rfl, fun _ => by rw [instrEntry_eorImm]; rfl⟩
theorem eorZp (z : Byte) : Statement (.eorZp z) := ⟨rfl, fun _ => by rw [instrEntry_eorZp]; rfl⟩
theorem eorZpx (z : Byte) : Statement (.eorZpx z) := ⟨rfl, fun _ => by rw [instrEntry_eorZpx]; rfl⟩
theorem eorAbs (w : Word) : Statement (.eorAbs w) := ⟨rfl, fun _ => by rw [instrEntry_eorAbs]; rfl⟩
theorem eorAbsx (w : Word) : Statement (.eorAbsx w) := ⟨rfl, fun _ => by rw [instrEntry_eorAbsx]; rfl⟩
theorem eorAbsy (w : Word) : Statement (.eorAbsy w) := ⟨rfl, fun _ => by rw [instrEntry_eorAbsy]; rfl⟩
theorem eorIndx (z : Byte) : Statement (.eorIndx z) := ⟨rfl, fun _ => by rw [instrEntry_eorIndx]; rfl⟩
theorem eorIndy (z : Byte) : Statement (.eorIndy z) := ⟨rfl, fun _ => by rw [instrEntry_eorIndy]; rfl⟩
theorem bitZp (z : Byte) : Statement (.bitZp z) := ⟨rfl, fun _ => by rw [instrEntry_bitZp]; rfl⟩
theorem bitAbs (w : Word) : Statement (.bitAbs w) := ⟨rfl, fun _ => by rw [instrEntry_bitAbs]; rfl⟩
theorem adcImm (b : Byte) : Statement (.adcImm b) := ⟨rfl, fun _ => by rw [instrEntry_adcImm]; rfl⟩
theorem adcZp (z : Byte) : Statement (.adcZp z) := ⟨rfl, fun _ => by rw [instrEntry_adcZp]; rfl⟩
theorem adcZpx (z : Byte) : Statement (.adcZpx z) := ⟨rfl, fun _ => by rw [instrEntry_adcZpx]; rfl⟩
theorem adcAbs (w : Word) : Statement (.adcAbs w) := ⟨rfl, fun _ => by rw [instrEntry_adcAbs]; rfl⟩
theorem adcAbsx (w : Word) : Statement (.adcAbsx w) := ⟨rfl, fun _ => by rw [instrEntry_adcAbsx]; rfl⟩
theorem adcAbsy (w : Word) : Statement (.adcAbsy w) := ⟨rfl, fun _ => by rw [instrEntry_adcAbsy]; rfl⟩
theorem adcIndx (z : Byte) : Statement (.adcIndx z) := ⟨rfl, fun _ => by rw [instrEntry_adcIndx]; rfl⟩
theorem adcIndy (z : Byte) : Statement (.adcIndy z) := ⟨rfl, fun _ => by rw [instrEntry_adcIndy]; rfl⟩
theorem sbcImm (b : Byte) : Statement (.sbcImm b) := ⟨rfl, fun _ => by rw [instrEntry_sbcImm]; rfl⟩
theorem sbcZp (z : Byte) : Statement (.sbcZp z) := ⟨rfl, fun _ => by rw [instrEntry_sbcZp]; rfl⟩
theorem sbcZpx (z : Byte) : Statement (.sbcZpx z) := ⟨rfl, fun _ => by rw [instrEntry_sbcZpx]; rfl⟩
theorem sbcAbs (w : Word) : Statement (.sbcAbs w) := ⟨rfl, fun _ => by rw [instrEntry_sbcAbs]; rfl⟩
theorem sbcAbsx (w : Word) : Statement (.sbcAbsx w) := ⟨rfl, fun _ => by rw [instrEntry_sbcAbsx]; rfl⟩
theorem sbcAbsy (w : Word) : Statement (.sbcAbsy w) := ⟨rfl, fun _ => by rw [instrEntry_sbcAbsy]; rfl⟩
theorem sbcIndx (z : Byte) : Statement (.sbcIndx z) := ⟨rfl, fun _ => by rw [instrEntry_sbcIndx]; rfl⟩
theorem sbcIndy (z : Byte) : Statement (.sbcIndy z) := ⟨rfl, fun _ => by rw [instrEntry_sbcIndy]; rfl⟩
theorem cmpImm (b : Byte) : Statement (.cmpImm b) := ⟨rfl, fun _ => by rw [instrEntry_cmpImm]; rfl⟩
theorem cmpZp (z : Byte) : Statement (.cmpZp z) := ⟨rfl, fun _ => by rw [instrEntry_cmpZp]; rfl⟩
theorem cmpZpx (z : Byte) : Statement (.cmpZpx z) := ⟨rfl, fun _ => by rw [instrEntry_cmpZpx]; rfl⟩
theorem cmpAbs (w : Word) : Statement (.cmpAbs w) := ⟨rfl, fun _ => by rw [instrEntry_cmpAbs]; rfl⟩
theorem cmpAbsx (w : Word) : Statement (.cmpAbsx w) := ⟨rfl, fun _ => by rw [instrEntry_cmpAbsx]; rfl⟩
theorem cmpAbsy (w : Word) : Statement (.cmpAbsy w) := ⟨rfl, fun _ => by rw [instrEntry_cmpAbsy]; rfl⟩
theorem cmpIndx (z : Byte) : Statement (.cmpIndx z) := ⟨rfl, fun _ => by rw [instrEntry_cmpIndx]; rfl⟩
theorem cmpIndy (z : Byte) : Statement (.cmpIndy z) := ⟨rfl, fun _ => by rw [instrEntry_cmpIndy]; rfl⟩
theorem cpxImm (b : Byte) : Statement (.cpxImm b) := ⟨rfl, fun _ => by rw [instrEntry_cpxImm]; rfl⟩
theorem cpxZp (z : Byte) : Statement (.cpxZp z) := ⟨rfl, fun _ => by rw [instrEntry_cpxZp]; rfl⟩
theorem cpxAbs (w : Word) : Statement (.cpxAbs w) := ⟨rfl, fun _ => by rw [instrEntry_cpxAbs]; rfl⟩
theorem cpyImm (b : Byte) : Statement (.cpyImm b) := ⟨rfl, fun _ => by rw [instrEntry_cpyImm]; rfl⟩
theorem cpyZp (z : Byte) : Statement (.cpyZp z) := ⟨rfl, fun _ => by rw [instrEntry_cpyZp]; rfl⟩
theorem cpyAbs (w : Word) : Statement (.cpyAbs w) := ⟨rfl, fun _ => by rw [instrEntry_cpyAbs]; rfl⟩
theorem incZp (z : Byte) : Statement (.incZp z) := ⟨rfl, fun _ => by rw [instrEntry_incZp]; rfl⟩
theorem incZpx (z : Byte) : Statement (.incZpx z) := ⟨rfl, fun _ => by rw [instrEntry_incZpx]; rfl⟩
theorem incAbs (w : Word) : Statement (.incAbs w) := ⟨rfl, fun _ => by rw [instrEntry_incAbs]; rfl⟩
theorem incAbsx (w : Word) : Statement (.incAbsx w) := ⟨rfl, fun _ => by rw [instrEntry_incAbsx]; rfl⟩
theorem decZp (z : Byte) : Statement (.decZp z) := ⟨rfl, fun _ => by rw [instrEntry_decZp]; rfl⟩
theorem decZpx (z : Byte) : Statement (.decZpx z) := ⟨rfl, fun _ => by rw [instrEntry_decZpx]; rfl⟩
theorem decAbs (w : Word) : Statement (.decAbs w) := ⟨rfl, fun _ => by rw [instrEntry_decAbs]; rfl⟩
theorem decAbsx (w : Word) : Statement (.decAbsx w) := ⟨rfl, fun _ => by rw [instrEntry_decAbsx]; rfl⟩
theorem inx : Statement .inx := ⟨rfl, fun _ => rfl⟩
theorem iny : Statement .iny := ⟨rfl, fun _ => rfl⟩
theorem dex : Statement .dex := ⟨rfl, fun _ => rfl⟩
theorem dey : Statement .dey := ⟨rfl, fun _ => rfl⟩
theorem aslAcc : Statement .aslAcc := ⟨rfl, fun _ => rfl⟩
theorem aslZp (z : Byte) : Statement (.aslZp z) := ⟨rfl, fun _ => by rw [instrEntry_aslZp]; rfl⟩
theorem aslZpx (z : Byte) : Statement (.aslZpx z) := ⟨rfl, fun _ => by rw [instrEntry_aslZpx]; rfl⟩
theorem aslAbs (w : Word) : Statement (.aslAbs w) := ⟨rfl, fun _ => by rw [instrEntry_aslAbs]; rfl⟩
theorem aslAbsx (w : Word) : Statement (.aslAbsx w) := ⟨rfl, fun _ => by rw [instrEntry_aslAbsx]; rfl⟩
theorem lsrAcc : Statement .lsrAcc := ⟨rfl, fun _ => rfl⟩
theorem lsrZp (z : Byte) : Statement (.lsrZp z) := ⟨rfl, fun _ => by rw [instrEntry_lsrZp]; rfl⟩
theorem lsrZpx (z : Byte) : Statement (.lsrZpx z) := ⟨rfl, fun _ => by rw [instrEntry_lsrZpx]; rfl⟩
theorem lsrAbs (w : Word) : Statement (.lsrAbs w) := ⟨rfl, fun _ => by rw [instrEntry_lsrAbs]; rfl⟩
theorem lsrAbsx (w : Word) : Statement (.lsrAbsx w) := ⟨rfl, fun _ => by rw [instrEntry_lsrAbsx]; rfl⟩
theorem rolAcc : Statement .rolAcc := ⟨rfl, fun _ => rfl⟩
theorem rolZp (z : Byte) : Statement (.rolZp z) := ⟨rfl, fun _ => by rw [instrEntry_rolZp]; rfl⟩
theorem rolZpx (z : Byte) : Statement (.rolZpx z) := ⟨rfl, fun _ => by rw [instrEntry_rolZpx]; rfl⟩
theorem rolAbs (w : Word) : Statement (.rolAbs w) := ⟨rfl, fun _ => by rw [instrEntry_rolAbs]; rfl⟩
theorem rolAbsx (w : Word) : Statement (.rolAbsx w) := ⟨rfl, fun _ => by rw [instrEntry_rolAbsx]; rfl⟩
theorem rorAcc : Statement .rorAcc := ⟨rfl, fun _ => rfl⟩
theorem rorZp (z : Byte) : Statement (.rorZp z) := ⟨rfl, fun _ => by rw [instrEntry_rorZp]; rfl⟩
theorem rorZpx (z : Byte) : Statement (.rorZpx z) := ⟨rfl, fun _ => by rw [instrEntry_rorZpx]; rfl⟩
theorem rorAbs (w : Word) : Statement (.rorAbs w) := ⟨rfl, fun _ => by rw [instrEntry_rorAbs]; rfl⟩
theorem rorAbsx (w : Word) : Statement (.rorAbsx w) := ⟨rfl, fun _ => by rw [instrEntry_rorAbsx]; rfl⟩
theorem jmpAbs (w : Word) : Statement (.jmpAbs w) := ⟨rfl, fun _ => by rw [instrEntry_jmpAbs]; rfl⟩
theorem jmpInd (w : Word) : Statement (.jmpInd w) := ⟨rfl, fun _ => by rw [instrEntry_jmpInd]; rfl⟩
theorem jsr (w : Word) : Statement (.jsr w) := ⟨rfl, fun _ => by rw [instrEntry_jsr]; rfl⟩
theorem rts : Statement .rts := ⟨rfl, fun _ => rfl⟩
theorem bcc (d : Byte) : Statement (.bcc d) := ⟨rfl, fun _ => by rw [instrEntry_bcc]; rfl⟩
theorem bcs (d : Byte) : Statement (.bcs d) := ⟨rfl, fun _ => by rw [instrEntry_bcs]; rfl⟩
theorem beq (d : Byte) : Statement (.beq d) := ⟨rfl, fun _ => by rw [instrEntry_beq]; rfl⟩
theorem bne (d : Byte) : Statement (.bne d) := ⟨rfl, fun _ => by rw [instrEntry_bne]; rfl⟩
theorem bmi (d : Byte) : Statement (.bmi d) := ⟨rfl, fun _ => by rw [instrEntry_bmi]; rfl⟩
theorem bpl (d : Byte) : Statement (.bpl d) := ⟨rfl, fun _ => by rw [instrEntry_bpl]; rfl⟩
theorem bvc (d : Byte) : Statement (.bvc d) := ⟨rfl, fun _ => by rw [instrEntry_bvc]; rfl⟩
theorem bvs (d : Byte) : Statement (.bvs d) := ⟨rfl, fun _ => by rw [instrEntry_bvs]; rfl⟩
theorem clc : Statement .clc := ⟨rfl, fun _ => rfl⟩
theorem sec : Statement .sec := ⟨rfl, fun _ => rfl⟩
theorem cli : Statement .cli := ⟨rfl, fun _ => rfl⟩
theorem sei : Statement .sei := ⟨rfl, fun _ => rfl⟩
theorem cld : Statement .cld := ⟨rfl, fun _ => rfl⟩
theorem sed : Statement .sed := ⟨rfl, fun _ => rfl⟩
theorem clv : Statement .clv := ⟨rfl, fun _ => rfl⟩
theorem nop : Statement .nop := ⟨rfl, fun _ => rfl⟩
theorem brk : Statement .brk := ⟨rfl, fun _ => rfl⟩
theorem rti : Statement .rti := ⟨rfl, fun _ => rfl⟩

/-- Every listed undefined opcode has an undefined entry (R85). -/
theorem entry_of_listed : ∀ op : Byte, undefinedOpcodes.contains op.toNat = true → (opcodeEntry op).operandBytes = 0 := by
  decide

theorem undefined (opcode : Byte) : Statement (.undefined opcode) := ⟨rfl, entry_of_listed opcode⟩

end Sys2Proof.Laws.EncodedLength
end

