-- ==== Sys2Proof/Laws/Step.lean ====
section
/-! SUPPORT. What a step can do, once; the fetch against the decoder; the transactions as a change of memory. -/

namespace Sys2Proof.Machine

/-! ## The step by its three cases (R215) -/

theorem step_nmi {s : State} (h : s.nmiPending = true) : step s = .next s.nmiEntry := by simp [step, State.takeInterrupt, h]

theorem step_irq {s : State} (hn : s.nmiPending = false) (hl : s.irqLine = true) (hi : s.p.i = false) :
    step s = .next s.irqEntry := by simp [step, State.takeInterrupt, hn, hl, hi]

theorem step_quiet {s : State} (h : s.quiet) : step s = exec s.fetch s := by
  obtain ⟨hn, hl | hi⟩ := h
  · simp [step, State.takeInterrupt, hn, hl]
  · simp [step, State.takeInterrupt, hn, hi]

/-- At every boundary one of the three holds. -/
theorem boundary_cases (s : State) :
    s.nmiPending = true ∨ (s.nmiPending = false ∧ s.irqLine = true ∧ s.p.i = false) ∨ s.quiet := by
  unfold State.quiet
  cases s.nmiPending <;> cases s.irqLine <;> cases s.p.i <;> simp

/-- Everything a step that goes on can have done. -/
theorem step_cases {s t : State} (h : step s = .next t) :
    (s.nmiPending = true ∧ t = s.nmiEntry) ∨
      (s.nmiPending = false ∧ s.irqLine = true ∧ s.p.i = false ∧ t = s.irqEntry) ∨
      (s.quiet ∧ exec s.fetch s = .next t) := by
  rcases boundary_cases s with hn | ⟨hn, hl, hi⟩ | hq
  · rw [step_nmi hn] at h; exact .inl ⟨hn, (Host.Outcome.next.inj h).symm⟩
  · rw [step_irq hn hl hi] at h; exact .inr (.inl ⟨hn, hl, hi, (Host.Outcome.next.inj h).symm⟩)
  · rw [step_quiet hq] at h; exact .inr (.inr ⟨hq, h⟩)

/-! ## The page-cross penalty as the statements write it (R115) -/

theorem crossed_toNat (a b : Word) : (crossed a b).toNat = Claims.pageCost a b := by
  simp only [crossed, page, Claims.pageCost]
  by_cases h : hiByte a = hiByte b <;> simp [h]

/-! ## The transactions of a step -/

theorem stepTrace_quiet {s : State} (h : s.quiet) : stepTrace s = busTrace s.fetch s := by
  obtain ⟨hn, hl | hi⟩ := h
  · simp [stepTrace, hn, hl]
  · simp [stepTrace, hn, hi]

theorem applyAccesses_append (m : Memory) (xs ys : List Access) :
    applyAccesses m (xs ++ ys) = applyAccesses (applyAccesses m xs) ys := by
  induction xs generalizing m with
  | nil => rfl
  | cons x xs ih => cases x <;> simp [applyAccesses, ih]

/-- Reads leave memory alone. -/
theorem applyAccesses_reads (m : Memory) (as : List Word) : applyAccesses m (as.map Access.read) = m := by
  induction as with
  | nil => rfl
  | cons a as ih => simpa [applyAccesses] using ih

theorem applyAccesses_fetch (m : Memory) (s : State) (n : Nat) : applyAccesses m (fetchAccesses s n) = m := by
  have := applyAccesses_reads m ((List.range (n + 1)).map fun k => s.pc + BitVec.ofNat 16 k)
  simpa [fetchAccesses, List.map_map, Function.comp_def] using this

theorem applyAccesses_pointer (m : Memory) (o : Operand) (s : State) :
    applyAccesses m (pointerAccesses o s) = m := by
  unfold pointerAccesses
  split <;> rfl

/-- Pushing a list of bytes changes memory as its transactions say. -/
theorem applyAccesses_push (s : State) (vs : List Byte) :
    applyAccesses s.mem (pushAccesses s vs) = (vs.foldl State.push s).mem := by
  induction vs generalizing s with
  | nil => rfl
  | cons v vs ih => simpa [pushAccesses, applyAccesses] using ih (s.push v)

theorem applyAccesses_pull (m : Memory) (s : State) (n : Nat) : applyAccesses m (pullAccesses s n) = m := by
  induction n generalizing s with
  | zero => rfl
  | succ n ih => simpa [pullAccesses, applyAccesses] using ih s.pulled

/-- An interrupt entry changes memory as its transactions say. -/
theorem applyAccesses_entry (s : State) (vector ret : Word) (b : Bool) (cycles : Nat) :
    applyAccesses s.mem (entryAccesses s vector ret b) = (s.interruptEntry vector ret b cycles).mem := by
  rw [entryAccesses, applyAccesses_append, applyAccesses_push]; rfl

/-- An address that no transaction writes reads as before. -/
theorem read_applyAccesses {m : Memory} {xs : List Access} {a : Word} (h : ∀ x ∈ xs, x.writes a = false) :
    Memory.read (applyAccesses m xs) a.toNat = Memory.read m a.toNat := by
  induction xs generalizing m with
  | nil => rfl
  | cons x xs ih =>
    have hx := h x List.mem_cons_self
    have ih := fun m => ih (m := m) fun y hy => h y (List.mem_cons_of_mem _ hy)
    cases x with
    | read k => exact ih m
    | write k v =>
      have hk : k.toNat ≠ a.toNat := by simpa [Access.writes, BitVec.toNat_inj] using hx
      rw [applyAccesses, ih, Memory.read_write, if_neg hk]

/-! ## Placing an instruction (log entry 4) -/

theorem State.placeAtPc_quiet (s : State) (bytes : List Byte) : (s.placeAtPc bytes).quiet := by
  refine ⟨rfl, ?_⟩
  have hp : (s.placeAtPc bytes).p = s.p := by
    simp only [State.placeAtPc]
    generalize s.pc = a
    induction bytes generalizing s a with
    | nil => rfl
    | cons v vs ih => simpa [State.writeBytes] using ih (s.writeMem a v) (a + 1#16)
  cases h : s.p.i
  · left; simp [State.placeAtPc, h]
  · right; rw [hp, h]

end Sys2Proof.Machine
end

