-- ==== Sys2Proof/Tests/Slice0.lean ====
section
/-! SUPPORT. Tests. Expected values come from the spec: words written out from 30_encoding.md R84, R85 and R88 and from
the opcodes of the instructions' rules, and the one-step vectors of 95_test_vectors.md (the id stands in each comment).
The last part shows, for each statement with hypotheses, a state and operands that meet them all. -/

namespace Sys2Proof.Tests

open Sys2Proof Sys2Proof.Machine Sys2Proof.Claims

/-! ## A small state, and what one step makes of it -/

/-- The flags of the vectors' default start state: I set, the others clear. -/
def idle : Status := { n := false, v := false, b := false, d := false, i := true, z := false, c := false }

/-- The vectors' default start state, with bytes at an address and PC there. -/
def codeAt (pc : Word) (bytes : List Byte) : State :=
  State.writeBytes { State.reset with pc := pc, p := idle } pc bytes

/-- The same at 0x0200. -/
def code (bytes : List Byte) : State := codeAt 0x0200#16 bytes

/-- More bytes of memory. -/
def poke (s : State) : List (Word × Byte) → State
  | [] => s
  | (a, v) :: rest => poke (s.writeMem a v) rest

/-- A view of the state after one step. -/
def after {α : Type} (s : State) (view : State → α) : Option α :=
  match step s with
  | .next t => some (view t)
  | .fault _ => none
  | .refused _ => none

/-- The fault of one step. -/
def faultOf (s : State) : Option Fault :=
  match step s with
  | .next _ => none
  | .fault f => some f
  | .refused _ => none

/-- What the decoder reads, for comparison. -/
def read (bytes : List Byte) : Option (Instr × List Byte) := (decode bytes).toOption

/-! ## Well-formedness: the one check (R85) -/

/-- A defined opcode under the undefined constructor is refused. -/
theorem test_wellFormed_refuses_defined_opcode : (Instr.undefined 0xA9#8).wellFormed = false := by decide

/-- The first and the last value of R85's list are accepted. -/
theorem test_wellFormed_accepts_listed :
    (Instr.undefined 0x02#8).wellFormed = true ∧ (Instr.undefined 0xFF#8).wellFormed = true := by decide

/-- R84, R85: 105 of the 256 entries are undefined. -/
theorem test_undefined_count :
    ((List.range 256).filter fun n => (read [BitVec.ofNat 8 n, 0#8, 0#8]).any fun r =>
      r.1 == .undefined (BitVec.ofNat 8 n)).length = 105 := by decide

/-- R84, R115: 23 opcodes carry the sign `+`. -/
theorem test_page_cross_count :
    ((List.range 256).filter fun n => (opcodeEntry (BitVec.ofNat 8 n)).penalty == .pageCross).length = 23 := by decide

/-! ## Decoding: words written out from R88's table and from the cells of R84 -/

/-- R88: `INX` is `E8`. -/
theorem test_decode_inx : read [0xE8#8] = some (.inx, []) := by decide

/-- R88: `ASL A` is `0A`. -/
theorem test_decode_aslAcc : read [0x0A#8] = some (.aslAcc, []) := by decide

/-- R88: `LDA #$10` is `A9 10`. -/
theorem test_decode_ldaImm : read [0xA9#8, 0x10#8] = some (.ldaImm 0x10#8, []) := by decide

/-- R88: `LDA $10` is `A5 10`. -/
theorem test_decode_ldaZp : read [0xA5#8, 0x10#8] = some (.ldaZp 0x10#8, []) := by decide

/-- R88: `LDA $10,X` is `B5 10`. -/
theorem test_decode_ldaZpx : read [0xB5#8, 0x10#8] = some (.ldaZpx 0x10#8, []) := by decide

/-- R88: `LDX $10,Y` is `B6 10`. -/
theorem test_decode_ldxZpy : read [0xB6#8, 0x10#8] = some (.ldxZpy 0x10#8, []) := by decide

/-- R88: `LDA $1234` is `AD 34 12`, low byte first. -/
theorem test_decode_ldaAbs : read [0xAD#8, 0x34#8, 0x12#8] = some (.ldaAbs 0x1234#16, []) := by decide

/-- R88: `LDA $1234,X` is `BD 34 12`. -/
theorem test_decode_ldaAbsx : read [0xBD#8, 0x34#8, 0x12#8] = some (.ldaAbsx 0x1234#16, []) := by decide

/-- R88: `LDA $1234,Y` is `B9 34 12`. -/
theorem test_decode_ldaAbsy : read [0xB9#8, 0x34#8, 0x12#8] = some (.ldaAbsy 0x1234#16, []) := by decide

/-- R88: `JMP ($1234)` is `6C 34 12`. -/
theorem test_decode_jmpInd : read [0x6C#8, 0x34#8, 0x12#8] = some (.jmpInd 0x1234#16, []) := by decide

/-- R88: `LDA ($10,X)` is `A1 10`. -/
theorem test_decode_ldaIndx : read [0xA1#8, 0x10#8] = some (.ldaIndx 0x10#8, []) := by decide

/-- R88: `LDA ($10),Y` is `B1 10`. -/
theorem test_decode_ldaIndy : read [0xB1#8, 0x10#8] = some (.ldaIndy 0x10#8, []) := by decide

/-- R88: `BNE` is `D0 dd`; the next byte is left over. -/
theorem test_decode_bne : read [0xD0#8, 0xF9#8, 0x8D#8] = some (.bne 0xF9#8, [0x8D#8]) := by decide

/-- R84, the source's own cells: 0xC6 `DEC zp`, 0xDE `DEC absx`, 0x90 `BCC rel`. -/
theorem test_decode_source_cells :
    read [0xC6#8, 0xFC#8] = some (.decZp 0xFC#8, []) ∧
      read [0xDE#8, 0xFC#8, 0xFA#8] = some (.decAbsx 0xFAFC#16, []) ∧
      read [0x90#8, 0x05#8] = some (.bcc 0x05#8, []) := by decide

/-- One row of R84 for each other family: `STX zpy`, `TSX`, `ADC indy`, `CPY abs`, `ROR absx`, `JSR abs`, `RTI`. -/
theorem test_decode_families :
    read [0x96#8, 0x10#8] = some (.stxZpy 0x10#8, []) ∧ read [0xBA#8] = some (.tsx, []) ∧
      read [0x71#8, 0x86#8] = some (.adcIndy 0x86#8, []) ∧
      read [0xCC#8, 0x00#8, 0x30#8] = some (.cpyAbs 0x3000#16, []) ∧
      read [0x7E#8, 0x00#8, 0x30#8] = some (.rorAbsx 0x3000#16, []) ∧
      read [0x20#8, 0x00#8, 0xC0#8] = some (.jsr 0xC000#16, []) ∧ read [0x40#8] = some (.rti, []) := by decide

/-- R87: 0x00 is the instruction BRK of one byte; R85: 0x80 is undefined and takes no operand byte. -/
theorem test_decode_brk_and_undefined :
    read [0x00#8, 0xEA#8] = some (.brk, [0xEA#8]) ∧
      read [0x80#8, 0x00#8] = some (.undefined 0x80#8, [0x00#8]) := by decide

/-- Missing operand bytes are rejected by name. -/
theorem test_decode_missing_operand :
    decode [0xAD#8, 0x34#8] = .error (.missingOperand 0xAD#8) ∧ decode [] = .error .noOpcode := by
  constructor <;> rfl

/-- The table's numbering of bits: the opcode is the low byte; operand bits that are not given are zero. -/
theorem test_decodeTableWord :
    decodeTableWord 24 0x1234AD = some (.ldaAbs 0x1234#16) ∧ decodeTableWord 8 0xAD = some (.ldaAbs 0x0000#16) ∧
      decodeTableWord 8 0x02 = some (.undefined 0x02#8) := by decide

/-- The very next step runs the placed instruction, from reset. -/
theorem test_withFetchWord :
    after (State.reset.withFetchWord 16 0x80A9) (fun t => (t.a, t.pc, t.cyc)) =
      some (0x80#8, State.reset.pc + 2#16, 2) := by decide

/-! ## Every defined row of the opcode table: its opcode byte, operand bytes 34 (and 12), and what they decode to -/

/-- R120 to R122. -/
theorem test_words_loads :
    [
      [0xA0#8, 0x34#8], [0xA1#8, 0x34#8], [0xA2#8, 0x34#8], [0xA4#8, 0x34#8], [0xA5#8, 0x34#8],
      [0xA6#8, 0x34#8], [0xA9#8, 0x34#8], [0xAC#8, 0x34#8, 0x12#8], [0xAD#8, 0x34#8, 0x12#8],
      [0xAE#8, 0x34#8, 0x12#8], [0xB1#8, 0x34#8], [0xB4#8, 0x34#8], [0xB5#8, 0x34#8], [0xB6#8, 0x34#8],
      [0xB9#8, 0x34#8, 0x12#8], [0xBC#8, 0x34#8, 0x12#8], [0xBD#8, 0x34#8, 0x12#8], [0xBE#8, 0x34#8, 0x12#8]].map read =
    ([
      .ldyImm 0x34#8, .ldaIndx 0x34#8, .ldxImm 0x34#8, .ldyZp 0x34#8, .ldaZp 0x34#8, .ldxZp 0x34#8,
      .ldaImm 0x34#8, .ldyAbs 0x1234#16, .ldaAbs 0x1234#16, .ldxAbs 0x1234#16, .ldaIndy 0x34#8, .ldyZpx 0x34#8,
      .ldaZpx 0x34#8, .ldxZpy 0x34#8, .ldaAbsy 0x1234#16, .ldyAbsx 0x1234#16, .ldaAbsx 0x1234#16,
      .ldxAbsy 0x1234#16] : List Instr).map fun i => some (i, []) := by decide

/-- R123 to R125. -/
theorem test_words_stores :
    [
      [0x81#8, 0x34#8], [0x84#8, 0x34#8], [0x85#8, 0x34#8], [0x86#8, 0x34#8], [0x8C#8, 0x34#8, 0x12#8],
      [0x8D#8, 0x34#8, 0x12#8], [0x8E#8, 0x34#8, 0x12#8], [0x91#8, 0x34#8], [0x94#8, 0x34#8], [0x95#8, 0x34#8],
      [0x96#8, 0x34#8], [0x99#8, 0x34#8, 0x12#8], [0x9D#8, 0x34#8, 0x12#8]].map read =
    ([
      .staIndx 0x34#8, .styZp 0x34#8, .staZp 0x34#8, .stxZp 0x34#8, .styAbs 0x1234#16, .staAbs 0x1234#16,
      .stxAbs 0x1234#16, .staIndy 0x34#8, .styZpx 0x34#8, .staZpx 0x34#8, .stxZpy 0x34#8, .staAbsy 0x1234#16,
      .staAbsx 0x1234#16] : List Instr).map fun i => some (i, []) := by decide

/-- R130 to R139. -/
theorem test_words_transfers_stack :
    [
      [0x08#8], [0x28#8], [0x48#8], [0x68#8], [0x8A#8], [0x98#8], [0x9A#8], [0xA8#8], [0xAA#8], [0xBA#8]].map read =
    ([
      .php, .plp, .pha, .pla, .txa, .tya, .txs, .tay, .tax, .tsx] : List Instr).map fun i => some (i, []) := by decide

/-- R140 to R143. -/
theorem test_words_logic :
    [
      [0x01#8, 0x34#8], [0x05#8, 0x34#8], [0x09#8, 0x34#8], [0x0D#8, 0x34#8, 0x12#8], [0x11#8, 0x34#8],
      [0x15#8, 0x34#8], [0x19#8, 0x34#8, 0x12#8], [0x1D#8, 0x34#8, 0x12#8], [0x21#8, 0x34#8], [0x24#8, 0x34#8],
      [0x25#8, 0x34#8], [0x29#8, 0x34#8], [0x2C#8, 0x34#8, 0x12#8], [0x2D#8, 0x34#8, 0x12#8], [0x31#8, 0x34#8],
      [0x35#8, 0x34#8], [0x39#8, 0x34#8, 0x12#8], [0x3D#8, 0x34#8, 0x12#8], [0x41#8, 0x34#8], [0x45#8, 0x34#8],
      [0x49#8, 0x34#8], [0x4D#8, 0x34#8, 0x12#8], [0x51#8, 0x34#8], [0x55#8, 0x34#8], [0x59#8, 0x34#8, 0x12#8],
      [0x5D#8, 0x34#8, 0x12#8]].map read =
    ([
      .oraIndx 0x34#8, .oraZp 0x34#8, .oraImm 0x34#8, .oraAbs 0x1234#16, .oraIndy 0x34#8, .oraZpx 0x34#8,
      .oraAbsy 0x1234#16, .oraAbsx 0x1234#16, .andIndx 0x34#8, .bitZp 0x34#8, .andZp 0x34#8, .andImm 0x34#8,
      .bitAbs 0x1234#16, .andAbs 0x1234#16, .andIndy 0x34#8, .andZpx 0x34#8, .andAbsy 0x1234#16,
      .andAbsx 0x1234#16, .eorIndx 0x34#8, .eorZp 0x34#8, .eorImm 0x34#8, .eorAbs 0x1234#16, .eorIndy 0x34#8,
      .eorZpx 0x34#8, .eorAbsy 0x1234#16, .eorAbsx 0x1234#16] : List Instr).map fun i => some (i, []) := by decide

/-- R144, R147. -/
theorem test_words_add_subtract :
    [
      [0x61#8, 0x34#8], [0x65#8, 0x34#8], [0x69#8, 0x34#8], [0x6D#8, 0x34#8, 0x12#8], [0x71#8, 0x34#8],
      [0x75#8, 0x34#8], [0x79#8, 0x34#8, 0x12#8], [0x7D#8, 0x34#8, 0x12#8], [0xE1#8, 0x34#8], [0xE5#8, 0x34#8],
      [0xE9#8, 0x34#8], [0xED#8, 0x34#8, 0x12#8], [0xF1#8, 0x34#8], [0xF5#8, 0x34#8], [0xF9#8, 0x34#8, 0x12#8],
      [0xFD#8, 0x34#8, 0x12#8]].map read =
    ([
      .adcIndx 0x34#8, .adcZp 0x34#8, .adcImm 0x34#8, .adcAbs 0x1234#16, .adcIndy 0x34#8, .adcZpx 0x34#8,
      .adcAbsy 0x1234#16, .adcAbsx 0x1234#16, .sbcIndx 0x34#8, .sbcZp 0x34#8, .sbcImm 0x34#8,
      .sbcAbs 0x1234#16, .sbcIndy 0x34#8, .sbcZpx 0x34#8, .sbcAbsy 0x1234#16, .sbcAbsx 0x1234#16] : List Instr).map fun i => some (i, []) := by decide

/-- R149 to R151. -/
theorem test_words_compares :
    [
      [0xC0#8, 0x34#8], [0xC1#8, 0x34#8], [0xC4#8, 0x34#8], [0xC5#8, 0x34#8], [0xC9#8, 0x34#8],
      [0xCC#8, 0x34#8, 0x12#8], [0xCD#8, 0x34#8, 0x12#8], [0xD1#8, 0x34#8], [0xD5#8, 0x34#8],
      [0xD9#8, 0x34#8, 0x12#8], [0xDD#8, 0x34#8, 0x12#8], [0xE0#8, 0x34#8], [0xE4#8, 0x34#8],
      [0xEC#8, 0x34#8, 0x12#8]].map read =
    ([
      .cpyImm 0x34#8, .cmpIndx 0x34#8, .cpyZp 0x34#8, .cmpZp 0x34#8, .cmpImm 0x34#8, .cpyAbs 0x1234#16,
      .cmpAbs 0x1234#16, .cmpIndy 0x34#8, .cmpZpx 0x34#8, .cmpAbsy 0x1234#16, .cmpAbsx 0x1234#16,
      .cpxImm 0x34#8, .cpxZp 0x34#8, .cpxAbs 0x1234#16] : List Instr).map fun i => some (i, []) := by decide

/-- R160 to R165. -/
theorem test_words_increments :
    [
      [0x88#8], [0xC6#8, 0x34#8], [0xC8#8], [0xCA#8], [0xCE#8, 0x34#8, 0x12#8], [0xD6#8, 0x34#8],
      [0xDE#8, 0x34#8, 0x12#8], [0xE6#8, 0x34#8], [0xE8#8], [0xEE#8, 0x34#8, 0x12#8], [0xF6#8, 0x34#8],
      [0xFE#8, 0x34#8, 0x12#8]].map read =
    ([
      .dey, .decZp 0x34#8, .iny, .dex, .decAbs 0x1234#16, .decZpx 0x34#8, .decAbsx 0x1234#16, .incZp 0x34#8,
      .inx, .incAbs 0x1234#16, .incZpx 0x34#8, .incAbsx 0x1234#16] : List Instr).map fun i => some (i, []) := by decide

/-- R166, R167. -/
theorem test_words_shifts :
    [
      [0x06#8, 0x34#8], [0x0A#8], [0x0E#8, 0x34#8, 0x12#8], [0x16#8, 0x34#8], [0x1E#8, 0x34#8, 0x12#8],
      [0x46#8, 0x34#8], [0x4A#8], [0x4E#8, 0x34#8, 0x12#8], [0x56#8, 0x34#8], [0x5E#8, 0x34#8, 0x12#8]].map read =
    ([
      .aslZp 0x34#8, .aslAcc, .aslAbs 0x1234#16, .aslZpx 0x34#8, .aslAbsx 0x1234#16, .lsrZp 0x34#8, .lsrAcc,
      .lsrAbs 0x1234#16, .lsrZpx 0x34#8, .lsrAbsx 0x1234#16] : List Instr).map fun i => some (i, []) := by decide

/-- R168, R169. -/
theorem test_words_rotates :
    [
      [0x26#8, 0x34#8], [0x2A#8], [0x2E#8, 0x34#8, 0x12#8], [0x36#8, 0x34#8], [0x3E#8, 0x34#8, 0x12#8],
      [0x66#8, 0x34#8], [0x6A#8], [0x6E#8, 0x34#8, 0x12#8], [0x76#8, 0x34#8], [0x7E#8, 0x34#8, 0x12#8]].map read =
    ([
      .rolZp 0x34#8, .rolAcc, .rolAbs 0x1234#16, .rolZpx 0x34#8, .rolAbsx 0x1234#16, .rorZp 0x34#8, .rorAcc,
      .rorAbs 0x1234#16, .rorZpx 0x34#8, .rorAbsx 0x1234#16] : List Instr).map fun i => some (i, []) := by decide

/-- R170 to R182. -/
theorem test_words_control :
    [
      [0x10#8, 0x34#8], [0x20#8, 0x34#8, 0x12#8], [0x30#8, 0x34#8], [0x4C#8, 0x34#8, 0x12#8], [0x50#8, 0x34#8],
      [0x60#8], [0x6C#8, 0x34#8, 0x12#8], [0x70#8, 0x34#8], [0x90#8, 0x34#8], [0xB0#8, 0x34#8],
      [0xD0#8, 0x34#8], [0xF0#8, 0x34#8]].map read =
    ([
      .bpl 0x34#8, .jsr 0x1234#16, .bmi 0x34#8, .jmpAbs 0x1234#16, .bvc 0x34#8, .rts, .jmpInd 0x1234#16,
      .bvs 0x34#8, .bcc 0x34#8, .bcs 0x34#8, .bne 0x34#8, .beq 0x34#8] : List Instr).map fun i => some (i, []) := by decide

/-- R190 to R199. -/
theorem test_words_flags_system :
    [
      [0x00#8], [0x18#8], [0x38#8], [0x40#8], [0x58#8], [0x78#8], [0xB8#8], [0xD8#8], [0xEA#8], [0xF8#8]].map read =
    ([
      .brk, .clc, .sec, .rti, .cli, .sei, .clv, .cld, .nop, .sed] : List Instr).map fun i => some (i, []) := by decide

/-! ## Reset and the memory form (95_test_vectors.md VK1, VK2; S-I1) -/

/-- VK2: SP is assigned, not decremented; PC comes from the vector. -/
theorem test_VK2_reset :
    let s := (poke { State.powerOn with sp := 0x00#8, cyc := 999, nmiPending := true }
      [(0xFFFC#16, 0x00#8), (0xFFFD#16, 0x80#8)]).resetCall
    (s.sp, s.pc, s.stackAddr, s.cyc, s.nmiPending) = (0xFD#8, 0x8000#16, 0x01FD#16, 0, false) := by decide

/-- VK1: the transactions of reset are two reads. -/
theorem test_VK1_bus : resetTrace = [.read 0xFFFC#16, .read 0xFFFD#16] := by decide

/-- The canonical form holds at reset; a pair out of order, a repeated address and a listed unwritten byte break it. -/
theorem test_memory_form :
    Memory.wf State.reset.mem = true ∧ Memory.wf [(2, 1#8), (1, 1#8)] = false ∧
      Memory.wf [(1, 1#8), (1, 2#8)] = false ∧ Memory.wf [(1, Config.unlistedByte)] = false := by decide

/-- Writing the unwritten byte removes the pair. -/
theorem test_memory_write_removes :
    ((State.reset.writeMem 0xFFFF#16 0xA5#8).writeMem 0xFFFF#16 Config.unlistedByte).mem = [] := by decide

/-! ## One step each -/

/-- 95_test_vectors.md VA1: immediate. -/
theorem test_VA1_immediate :
    after (code [0xA9#8, 0x80#8]) (fun t => (t.pc, t.a, t.cyc, t.p.n)) =
    some (0x0202#16, 0x80#8, 2, true) := by decide

/-- 95_test_vectors.md VA2: zero page. -/
theorem test_VA2_zero_page :
    after (poke (code [0xA5#8, 0x10#8]) [(0x0010#16, 0x55#8)]) (fun t => (t.pc, t.a, t.cyc)) =
    some (0x0202#16, 0x55#8, 3) := by decide

/-- 95_test_vectors.md VA3: zero page,X wraps in page 0. -/
theorem test_VA3_zero_page_x_wraps_in_page :
    after { poke (code [0xB5#8, 0xFF#8]) [(0x0000#16, 0x11#8), (0x0100#16, 0x22#8)] with x := 0x01#8 } (fun t => (t.pc, t.a, t.cyc)) =
    some (0x0202#16, 0x11#8, 4) := by decide

/-- 95_test_vectors.md VA4: zero page,Y wraps in page 0. -/
theorem test_VA4_zero_page_y_wraps_in_page :
    after { poke (code [0xB6#8, 0x80#8]) [(0x0010#16, 0x33#8), (0x0110#16, 0x44#8)] with y := 0x90#8 } (fun t => (t.pc, t.x, t.cyc)) =
    some (0x0202#16, 0x33#8, 4) := by decide

/-- 95_test_vectors.md VA5: absolute. -/
theorem test_VA5_absolute :
    after (poke (code [0xAD#8, 0x34#8, 0x12#8]) [(0x1234#16, 0x66#8)]) (fun t => (t.pc, t.a, t.cyc)) =
    some (0x0203#16, 0x66#8, 4) := by decide

/-- 95_test_vectors.md VA7: absolute,X crossing, read-class +1. -/
theorem test_VA7_absolute_x_crossing_read_class_1 :
    after { poke (code [0xBD#8, 0xF0#8, 0x12#8]) [(0x1300#16, 0x78#8)] with x := 0x10#8 } (fun t => (t.pc, t.a, t.cyc)) =
    some (0x0203#16, 0x78#8, 5) := by decide

/-- 95_test_vectors.md VA8: absolute,Y wraps past 0xFFFF, crossing +1. -/
theorem test_VA8_absolute_y_wraps_past_0xffff_crossing :
    after { poke (code [0xB9#8, 0xFF#8, 0xFF#8]) [(0x0001#16, 0x79#8)] with y := 0x02#8 } (fun t => (t.pc, t.a, t.cyc)) =
    some (0x0203#16, 0x79#8, 5) := by decide

/-- 95_test_vectors.md VA9: absolute,X crossing, store pays nothing. -/
theorem test_VA9_absolute_x_crossing_store_pays_nothing :
    after { code [0x9D#8, 0xF0#8, 0x12#8] with a := 0x5A#8, x := 0x10#8 } (fun t => (t.pc, t.cyc, t.readMem 0x1300#16)) =
    some (0x0203#16, 5, 0x5A#8) := by decide

/-- 95_test_vectors.md VA10: (zp,X) pointer wraps in page 0. -/
theorem test_VA10_zp_x_pointer_wraps_in_page :
    after { poke (code [0xA1#8, 0xFE#8]) [(0x00FF#16, 0x34#8), (0x0000#16, 0x12#8), (0x0100#16, 0x99#8), (0x1234#16, 0x42#8)] with x := 0x01#8 } (fun t => (t.pc, t.a, t.cyc)) =
    some (0x0202#16, 0x42#8, 6) := by decide

/-- 95_test_vectors.md VA11: (zp,X) index wraps. -/
theorem test_VA11_zp_x_index_wraps :
    after { poke (code [0xA1#8, 0x80#8]) [(0x0010#16, 0x00#8), (0x0011#16, 0x30#8), (0x3000#16, 0x43#8)] with x := 0x90#8 } (fun t => (t.pc, t.a, t.cyc)) =
    some (0x0202#16, 0x43#8, 6) := by decide

/-- 95_test_vectors.md VA13: (zp),Y crossing +1. -/
theorem test_VA13_zp_y_crossing_1 :
    after { poke (code [0xB1#8, 0x86#8]) [(0x0086#16, 0xF8#8), (0x0087#16, 0x40#8), (0x4108#16, 0x45#8)] with y := 0x10#8 } (fun t => (t.pc, t.a, t.cyc)) =
    some (0x0202#16, 0x45#8, 6) := by decide

/-- 95_test_vectors.md VA14: (zp),Y pointer at 0xFF takes high byte from 0x00. -/
theorem test_VA14_zp_y_pointer_at_0xff_takes :
    after { poke (code [0xB1#8, 0xFF#8]) [(0x00FF#16, 0x00#8), (0x0000#16, 0x50#8), (0x0100#16, 0x60#8), (0x5000#16, 0x46#8)] with y := 0x00#8 } (fun t => (t.pc, t.a, t.cyc)) =
    some (0x0202#16, 0x46#8, 5) := by decide

/-- 95_test_vectors.md VA15: (zp),Y crossing, store pays nothing. -/
theorem test_VA15_zp_y_crossing_store_pays_nothing :
    after { poke (code [0x91#8, 0x86#8]) [(0x0086#16, 0xF8#8), (0x0087#16, 0x40#8)] with a := 0xA5#8, y := 0x10#8 } (fun t => (t.pc, t.cyc, t.readMem 0x4108#16)) =
    some (0x0202#16, 6, 0xA5#8) := by decide

/-- 95_test_vectors.md VA16: indirect, no bug. -/
theorem test_VA16_indirect_no_bug :
    after (poke (code [0x6C#8, 0x20#8, 0x03#8]) [(0x0320#16, 0x78#8), (0x0321#16, 0x56#8)]) (fun t => (t.pc, t.cyc)) =
    some (0x5678#16, 5) := by decide

/-- 95_test_vectors.md VA17: indirect, page-boundary bug. -/
theorem test_VA17_indirect_page_boundary_bug :
    after (poke (code [0x6C#8, 0xFF#8, 0x03#8]) [(0x03FF#16, 0x78#8), (0x0300#16, 0x56#8), (0x0400#16, 0x99#8)]) (fun t => (t.pc, t.cyc)) =
    some (0x5678#16, 5) := by decide

/-- 95_test_vectors.md VA18: operand bytes wrap past 0xFFFF. -/
theorem test_VA18_operand_bytes_wrap_past_0xffff :
    after (poke (codeAt 0xFFFF#16 [0xAD#8, 0x00#8, 0x00#8]) [(0x0000#16, 0x10#8), (0x0001#16, 0x00#8), (0x0010#16, 0x21#8)]) (fun t => (t.pc, t.a, t.cyc)) =
    some (0x0002#16, 0x21#8, 4) := by decide

/-- 95_test_vectors.md VB1: LDA zero sets Z. -/
theorem test_VB1_lda_zero_sets_z :
    after { code [0xA9#8, 0x00#8] with a := 0x55#8, p := { idle with n := true } } (fun t => (t.pc, t.a, t.cyc, [t.p.n, t.p.z])) =
    some (0x0202#16, 0x00#8, 2, [false, true]) := by decide

/-- 95_test_vectors.md VB2: LDX negative. -/
theorem test_VB2_ldx_negative :
    after (code [0xA2#8, 0xFF#8]) (fun t => (t.pc, t.x, t.cyc, t.p.n)) =
    some (0x0202#16, 0xFF#8, 2, true) := by decide

/-- 95_test_vectors.md VB3: LDY abs,X. -/
theorem test_VB3_ldy_abs_x :
    after { poke (code [0xBC#8, 0x00#8, 0x30#8]) [(0x3005#16, 0x7F#8)] with x := 0x05#8 } (fun t => (t.pc, t.y, t.cyc)) =
    some (0x0203#16, 0x7F#8, 4) := by decide

/-- 95_test_vectors.md VB4: STA changes no flag. -/
theorem test_VB4_sta_changes_no_flag :
    after { code [0x85#8, 0x10#8] with a := 0x00#8, p := { idle with n := true, z := false } } (fun t => (t.pc, t.cyc, t.readMem 0x0010#16)) =
    some (0x0202#16, 3, 0x00#8) := by decide

/-- 95_test_vectors.md VB5: STX zp,Y. -/
theorem test_VB5_stx_zp_y :
    after { code [0x96#8, 0x10#8] with x := 0xAB#8, y := 0xF5#8 } (fun t => (t.pc, t.cyc, t.readMem 0x0005#16)) =
    some (0x0202#16, 4, 0xAB#8) := by decide

/-- 95_test_vectors.md VB6: STY abs. -/
theorem test_VB6_sty_abs :
    after { code [0x8C#8, 0x00#8, 0x30#8] with y := 0x80#8 } (fun t => (t.pc, t.cyc, t.readMem 0x3000#16)) =
    some (0x0203#16, 4, 0x80#8) := by decide

/-- 95_test_vectors.md VB7: STA into the stack page. -/
theorem test_VB7_sta_into_the_stack_page :
    after { code [0x8D#8, 0xFD#8, 0x01#8] with a := 0x12#8 } (fun t => (t.pc, t.cyc, t.readMem 0x01FD#16)) =
    some (0x0203#16, 4, 0x12#8) := by decide

/-- 95_test_vectors.md VC1: TAX. -/
theorem test_VC1_tax :
    after { code [0xAA#8] with a := 0x80#8 } (fun t => (t.pc, t.x, t.cyc, t.p.n)) =
    some (0x0201#16, 0x80#8, 2, true) := by decide

/-- 95_test_vectors.md VC2: TAY zero. -/
theorem test_VC2_tay_zero :
    after { code [0xA8#8] with a := 0x00#8, y := 0x05#8 } (fun t => (t.pc, t.y, t.cyc, t.p.z)) =
    some (0x0201#16, 0x00#8, 2, true) := by decide

/-- 95_test_vectors.md VC3: TXA. -/
theorem test_VC3_txa :
    after { code [0x8A#8] with x := 0x01#8, p := { idle with z := true } } (fun t => (t.pc, t.a, t.cyc, t.p.z)) =
    some (0x0201#16, 0x01#8, 2, false) := by decide

/-- 95_test_vectors.md VC4: TYA. -/
theorem test_VC4_tya :
    after { code [0x98#8] with y := 0xFF#8 } (fun t => (t.pc, t.a, t.cyc, t.p.n)) =
    some (0x0201#16, 0xFF#8, 2, true) := by decide

/-- 95_test_vectors.md VC5: TSX copies SP, reads no memory. -/
theorem test_VC5_tsx_copies_sp_reads_no_memory :
    after (poke (code [0xBA#8]) [(0x01FD#16, 0x77#8)]) (fun t => (t.pc, t.x, t.cyc, t.p.n)) =
    some (0x0201#16, 0xFD#8, 2, true) := by decide

/-- 95_test_vectors.md VC6: TXS changes no flag. -/
theorem test_VC6_txs_changes_no_flag :
    after { code [0x9A#8] with x := 0x00#8, p := { idle with n := true } } (fun t => (t.pc, t.sp, t.cyc)) =
    some (0x0201#16, 0x00#8, 2) := by decide

/-- 95_test_vectors.md VC7: PHA. -/
theorem test_VC7_pha :
    after { code [0x48#8] with a := 0x42#8 } (fun t => (t.pc, t.sp, t.cyc, t.readMem 0x01FD#16)) =
    some (0x0201#16, 0xFC#8, 3, 0x42#8) := by decide

/-- 95_test_vectors.md VC8: PHA at SP=00 wraps. -/
theorem test_VC8_pha_at_sp_00_wraps :
    after { code [0x48#8] with a := 0x42#8, sp := 0x00#8 } (fun t => (t.pc, t.sp, t.cyc, t.readMem 0x0100#16)) =
    some (0x0201#16, 0xFF#8, 3, 0x42#8) := by decide

/-- 95_test_vectors.md VC9: PHP pushes bits 5,4 set. -/
theorem test_VC9_php_pushes_bits_5_4_set :
    after { code [0x08#8] with p := { idle with n := true, i := false, c := true } } (fun t => (t.pc, t.sp, t.cyc, t.readMem 0x01FD#16)) =
    some (0x0201#16, 0xFC#8, 3, 0xB1#8) := by decide

/-- 95_test_vectors.md VC10: PLA sets Z/N. -/
theorem test_VC10_pla_sets_z_n :
    after { poke (code [0x68#8]) [(0x01FD#16, 0x80#8)] with sp := 0xFC#8 } (fun t => (t.pc, t.a, t.sp, t.cyc, t.p.n)) =
    some (0x0201#16, 0x80#8, 0xFD#8, 4, true) := by decide

/-- 95_test_vectors.md VC11: PLA at SP=FF wraps to 0x0100. -/
theorem test_VC11_pla_at_sp_ff_wraps_to :
    after { poke (code [0x68#8]) [(0x0100#16, 0x00#8)] with a := 0x09#8, sp := 0xFF#8 } (fun t => (t.pc, t.a, t.sp, t.cyc, t.p.z)) =
    some (0x0201#16, 0x00#8, 0x00#8, 4, true) := by decide

/-- 95_test_vectors.md VC12: PLP ignores bits 5,4. -/
theorem test_VC12_plp_ignores_bits_5_4 :
    after { poke (code [0x28#8]) [(0x01FD#16, 0xCB#8)] with sp := 0xFC#8 } (fun t => (t.pc, t.sp, t.cyc, [t.p.n, t.p.v, t.p.d, t.p.i, t.p.z, t.p.c])) =
    some (0x0201#16, 0xFD#8, 4, [true, true, true, false, true, true]) := by decide

/-- 95_test_vectors.md VC13: PLP of 0x30 clears everything. -/
theorem test_VC13_plp_of_0x30_clears_everything :
    after { poke (code [0x28#8]) [(0x01FD#16, 0x30#8)] with sp := 0xFC#8, p := { idle with n := true, v := true, d := true, z := true, c := true } } (fun t => (t.pc, t.sp, t.cyc, [t.p.n, t.p.v, t.p.d, t.p.i, t.p.z, t.p.c])) =
    some (0x0201#16, 0xFD#8, 4, [false, false, false, false, false, false]) := by decide

/-- 95_test_vectors.md VD1: AND. -/
theorem test_VD1_and :
    after { code [0x29#8, 0x0F#8] with a := 0xF0#8 } (fun t => (t.pc, t.a, t.cyc, [t.p.n, t.p.v, t.p.z, t.p.c])) =
    some (0x0202#16, 0x00#8, 2, [false, false, true, false]) := by decide

/-- 95_test_vectors.md VD2: ORA. -/
theorem test_VD2_ora :
    after { code [0x09#8, 0x80#8] with a := 0x01#8 } (fun t => (t.pc, t.a, t.cyc, [t.p.n, t.p.v, t.p.z, t.p.c])) =
    some (0x0202#16, 0x81#8, 2, [true, false, false, false]) := by decide

/-- 95_test_vectors.md VD3: EOR to zero. -/
theorem test_VD3_eor_to_zero :
    after { code [0x49#8, 0xFF#8] with a := 0xFF#8 } (fun t => (t.pc, t.a, t.cyc, [t.p.n, t.p.v, t.p.z, t.p.c])) =
    some (0x0202#16, 0x00#8, 2, [false, false, true, false]) := by decide

/-- 95_test_vectors.md VD4: BIT: Z from A&m, N,V from m. -/
theorem test_VD4_bit_z_from_a_m_n :
    after { poke (code [0x24#8, 0x10#8]) [(0x0010#16, 0xC0#8)] with a := 0x01#8 } (fun t => (t.pc, t.a, t.cyc, [t.p.n, t.p.v, t.p.z, t.p.c])) =
    some (0x0202#16, 0x01#8, 3, [true, true, true, false]) := by decide

/-- 95_test_vectors.md VD5: BIT clears N,V, A unchanged. -/
theorem test_VD5_bit_clears_n_v_a_unchanged :
    after { poke (code [0x2C#8, 0x00#8, 0x30#8]) [(0x3000#16, 0x3F#8)] with a := 0xFF#8, p := { idle with n := true, v := true } } (fun t => (t.pc, t.a, t.cyc, [t.p.n, t.p.v, t.p.z, t.p.c])) =
    some (0x0203#16, 0xFF#8, 4, [false, false, false, false]) := by decide

/-- 95_test_vectors.md VD7: CMP less: borrow, N from difference. -/
theorem test_VD7_cmp_less_borrow_n_from_difference :
    after { code [0xC9#8, 0x41#8] with a := 0x40#8, p := { idle with c := true } } (fun t => (t.pc, t.a, t.cyc, [t.p.n, t.p.v, t.p.z, t.p.c])) =
    some (0x0202#16, 0x40#8, 2, [true, false, false, false]) := by decide

/-- 95_test_vectors.md VD9: CMP 0x00 vs 0x80: N=1 although A<m unsigned. -/
theorem test_VD9_cmp_0x00_vs_0x80_n_1 :
    after { code [0xC9#8, 0x80#8] with a := 0x00#8, p := { idle with c := true } } (fun t => (t.pc, t.a, t.cyc, [t.p.n, t.p.v, t.p.z, t.p.c])) =
    some (0x0202#16, 0x00#8, 2, [true, false, false, false]) := by decide

/-- 95_test_vectors.md VD10: CPX zp. -/
theorem test_VD10_cpx_zp :
    after { poke (code [0xE4#8, 0x10#8]) [(0x0010#16, 0x0F#8)] with x := 0x10#8 } (fun t => (t.pc, t.a, t.cyc, [t.p.n, t.p.v, t.p.z, t.p.c])) =
    some (0x0202#16, 0x00#8, 3, [false, false, false, true]) := by decide

/-- 95_test_vectors.md VD11: CPY abs. -/
theorem test_VD11_cpy_abs :
    after { poke (code [0xCC#8, 0x00#8, 0x30#8]) [(0x3000#16, 0x01#8)] with y := 0x00#8, p := { idle with c := true } } (fun t => (t.pc, t.a, t.cyc, [t.p.n, t.p.v, t.p.z, t.p.c])) =
    some (0x0203#16, 0x00#8, 4, [true, false, false, false]) := by decide

/-- 95_test_vectors.md VE5: ADC 0x80+0x80: C,V,Z. -/
theorem test_VE5_adc_0x80_0x80_c_v_z :
    after { code [0x69#8, 0x80#8] with a := 0x80#8 } (fun t => (t.pc, t.a, t.cyc, [t.p.n, t.p.v, t.p.z, t.p.c])) =
    some (0x0202#16, 0x00#8, 2, [false, true, true, true]) := by decide

/-- 95_test_vectors.md VE8: SBC with borrow in (C=0). -/
theorem test_VE8_sbc_with_borrow_in_c_0 :
    after { code [0xE9#8, 0x01#8] with a := 0x05#8, p := { idle with c := false } } (fun t => (t.pc, t.a, t.cyc, [t.p.n, t.p.v, t.p.z, t.p.c])) =
    some (0x0202#16, 0x03#8, 2, [false, false, false, true]) := by decide

/-- 95_test_vectors.md VF2: 58+46+1=105: C=1, A=05. -/
theorem test_VF2_58_46_1_105_c_1 :
    after { code [0x69#8, 0x46#8] with a := 0x58#8, p := { idle with d := true, c := true } } (fun t => (t.pc, t.a, t.cyc, [t.p.n, t.p.v, t.p.z, t.p.c])) =
    some (0x0202#16, 0x05#8, 2, [true, true, false, true]) := by decide

/-- 95_test_vectors.md VF9: 12-21=91 borrow out. -/
theorem test_VF9_12_21_91_borrow_out :
    after { code [0xE9#8, 0x21#8] with a := 0x12#8, p := { idle with d := true, c := true } } (fun t => (t.pc, t.a, t.cyc, [t.p.n, t.p.v, t.p.z, t.p.c])) =
    some (0x0202#16, 0x91#8, 2, [true, false, false, false]) := by decide

/-- 95_test_vectors.md VG1: INC wraps to zero. -/
theorem test_VG1_inc_wraps_to_zero :
    after (poke (code [0xE6#8, 0x10#8]) [(0x0010#16, 0xFF#8)]) (fun t => (t.pc, t.cyc, [t.p.n, t.p.z, t.p.c], t.readMem 0x0010#16)) =
    some (0x0202#16, 5, [false, true, false], 0x00#8) := by decide

/-- 95_test_vectors.md VG2: INC abs,X crossing: fixed 7. -/
theorem test_VG2_inc_abs_x_crossing_fixed_7 :
    after { poke (code [0xFE#8, 0xFF#8, 0x30#8]) [(0x3100#16, 0x7F#8)] with x := 0x01#8 } (fun t => (t.pc, t.cyc, [t.p.n, t.p.z, t.p.c], t.readMem 0x3100#16)) =
    some (0x0203#16, 7, [true, false, false], 0x80#8) := by decide

/-- 95_test_vectors.md VG3: DEC zp,X. -/
theorem test_VG3_dec_zp_x :
    after { poke (code [0xD6#8, 0x10#8]) [(0x0014#16, 0x80#8)] with x := 0x04#8 } (fun t => (t.pc, t.cyc, [t.p.n, t.p.z, t.p.c], t.readMem 0x0014#16)) =
    some (0x0202#16, 6, [false, false, false], 0x7F#8) := by decide

/-- 95_test_vectors.md VG4: INX wrap. -/
theorem test_VG4_inx_wrap :
    after { code [0xE8#8] with x := 0xFF#8 } (fun t => (t.pc, t.x, t.cyc, [t.p.n, t.p.z, t.p.c])) =
    some (0x0201#16, 0x00#8, 2, [false, true, false]) := by decide

/-- 95_test_vectors.md VG5: INY. -/
theorem test_VG5_iny :
    after { code [0xC8#8] with y := 0x7F#8 } (fun t => (t.pc, t.y, t.cyc, [t.p.n, t.p.z, t.p.c])) =
    some (0x0201#16, 0x80#8, 2, [true, false, false]) := by decide

/-- 95_test_vectors.md VG6: DEX to zero. -/
theorem test_VG6_dex_to_zero :
    after { code [0xCA#8] with x := 0x01#8 } (fun t => (t.pc, t.x, t.cyc, [t.p.n, t.p.z, t.p.c])) =
    some (0x0201#16, 0x00#8, 2, [false, true, false]) := by decide

/-- 95_test_vectors.md VG7: DEY wrap. -/
theorem test_VG7_dey_wrap :
    after { code [0x88#8] with y := 0x00#8 } (fun t => (t.pc, t.y, t.cyc, [t.p.n, t.p.z, t.p.c])) =
    some (0x0201#16, 0xFF#8, 2, [true, false, false]) := by decide

/-- 95_test_vectors.md VG8: ASL A. -/
theorem test_VG8_asl_a :
    after { code [0x0A#8] with a := 0x81#8 } (fun t => (t.pc, t.a, t.cyc, [t.p.n, t.p.z, t.p.c])) =
    some (0x0201#16, 0x02#8, 2, [false, false, true]) := by decide

/-- 95_test_vectors.md VG9: ASL zp to zero with carry. -/
theorem test_VG9_asl_zp_to_zero_with_carry :
    after (poke (code [0x06#8, 0x10#8]) [(0x0010#16, 0x80#8)]) (fun t => (t.pc, t.cyc, [t.p.n, t.p.z, t.p.c], t.readMem 0x0010#16)) =
    some (0x0202#16, 5, [false, true, true], 0x00#8) := by decide

/-- 95_test_vectors.md VG10: LSR A. -/
theorem test_VG10_lsr_a :
    after { code [0x4A#8] with a := 0x01#8 } (fun t => (t.pc, t.a, t.cyc, [t.p.n, t.p.z, t.p.c])) =
    some (0x0201#16, 0x00#8, 2, [false, true, true]) := by decide

/-- 95_test_vectors.md VG11: LSR abs. -/
theorem test_VG11_lsr_abs :
    after { poke (code [0x4E#8, 0x00#8, 0x30#8]) [(0x3000#16, 0xFF#8)] with p := { idle with n := true } } (fun t => (t.pc, t.cyc, [t.p.n, t.p.z, t.p.c], t.readMem 0x3000#16)) =
    some (0x0203#16, 6, [false, false, true], 0x7F#8) := by decide

/-- 95_test_vectors.md VG12: ROL A carry in and out. -/
theorem test_VG12_rol_a_carry_in_and_out :
    after { code [0x2A#8] with a := 0x80#8, p := { idle with c := true } } (fun t => (t.pc, t.a, t.cyc, [t.p.n, t.p.z, t.p.c])) =
    some (0x0201#16, 0x01#8, 2, [false, false, true]) := by decide

/-- 95_test_vectors.md VG13: ROL zp,X. -/
theorem test_VG13_rol_zp_x :
    after { poke (code [0x36#8, 0x10#8]) [(0x0011#16, 0x40#8)] with x := 0x01#8, p := { idle with c := false } } (fun t => (t.pc, t.cyc, [t.p.n, t.p.z, t.p.c], t.readMem 0x0011#16)) =
    some (0x0202#16, 6, [true, false, false], 0x80#8) := by decide

/-- 95_test_vectors.md VG14: ROR A. -/
theorem test_VG14_ror_a :
    after { code [0x6A#8] with a := 0x01#8, p := { idle with c := false } } (fun t => (t.pc, t.a, t.cyc, [t.p.n, t.p.z, t.p.c])) =
    some (0x0201#16, 0x00#8, 2, [false, true, true]) := by decide

/-- 95_test_vectors.md VG15: ROR abs,X carry into bit 7. -/
theorem test_VG15_ror_abs_x_carry_into_bit :
    after { poke (code [0x7E#8, 0x00#8, 0x30#8]) [(0x3002#16, 0x02#8)] with x := 0x02#8, p := { idle with c := true } } (fun t => (t.pc, t.cyc, [t.p.n, t.p.z, t.p.c], t.readMem 0x3002#16)) =
    some (0x0203#16, 7, [true, false, false], 0x81#8) := by decide

/-- 95_test_vectors.md VH1: JMP abs. -/
theorem test_VH1_jmp_abs :
    after (code [0x4C#8, 0x00#8, 0xC0#8]) (fun t => (t.pc, t.cyc)) =
    some (0xC000#16, 3) := by decide

/-- 95_test_vectors.md VH3: JSR. -/
theorem test_VH3_jsr :
    after (code [0x20#8, 0x00#8, 0xC0#8]) (fun t => (t.pc, t.sp, t.cyc, [t.readMem 0x01FC#16, t.readMem 0x01FD#16])) =
    some (0xC000#16, 0xFB#8, 6, [0x02#8, 0x02#8]) := by decide

/-- 95_test_vectors.md VH4: JSR at SP=00 wraps. -/
theorem test_VH4_jsr_at_sp_00_wraps :
    after { code [0x20#8, 0x00#8, 0xC0#8] with sp := 0x00#8 } (fun t => (t.pc, t.sp, t.cyc, [t.readMem 0x0100#16, t.readMem 0x01FF#16])) =
    some (0xC000#16, 0xFE#8, 6, [0x02#8, 0x02#8]) := by decide

/-- 95_test_vectors.md VH5: RTS. -/
theorem test_VH5_rts :
    after { poke (code [0x60#8]) [(0x01FC#16, 0x02#8), (0x01FD#16, 0x02#8)] with sp := 0xFB#8 } (fun t => (t.pc, t.sp, t.cyc)) =
    some (0x0203#16, 0xFD#8, 6) := by decide

/-- 95_test_vectors.md VH6: RTS of 0xFFFF returns to 0x0000. -/
theorem test_VH6_rts_of_0xffff_returns_to_0x0000 :
    after { poke (code [0x60#8]) [(0x01FC#16, 0xFF#8), (0x01FD#16, 0xFF#8)] with sp := 0xFB#8 } (fun t => (t.pc, t.sp, t.cyc)) =
    some (0x0000#16, 0xFD#8, 6) := by decide

/-- 95_test_vectors.md VH8: BCC taken +5. -/
theorem test_VH8_bcc_taken_5 :
    after { code [0x90#8, 0x05#8] with p := { idle with c := false } } (fun t => (t.pc, t.cyc)) =
    some (0x0207#16, 3) := by decide

/-- 95_test_vectors.md VH9: BCC not taken. -/
theorem test_VH9_bcc_not_taken :
    after { code [0x90#8, 0x05#8] with p := { idle with c := true } } (fun t => (t.pc, t.cyc)) =
    some (0x0202#16, 2) := by decide

/-- 95_test_vectors.md VH10: BCS taken backward to itself. -/
theorem test_VH10_bcs_taken_backward_to_itself :
    after { code [0xB0#8, 0xFE#8] with p := { idle with c := true } } (fun t => (t.pc, t.cyc)) =
    some (0x0200#16, 3) := by decide

/-- 95_test_vectors.md VH11: BEQ taken, page crossed forward. -/
theorem test_VH11_beq_taken_page_crossed_forward :
    after { codeAt 0x02F0#16 [0xF0#8, 0x7F#8] with p := { idle with z := true } } (fun t => (t.pc, t.cyc)) =
    some (0x0371#16, 4) := by decide

/-- 95_test_vectors.md VH12: BNE taken backward, page crossed. -/
theorem test_VH12_bne_taken_backward_page_crossed :
    after { codeAt 0x0300#16 [0xD0#8, 0xFC#8] with p := { idle with z := false } } (fun t => (t.pc, t.cyc)) =
    some (0x02FE#16, 4) := by decide

/-- 95_test_vectors.md VH13: BMI not taken. -/
theorem test_VH13_bmi_not_taken :
    after { code [0x30#8, 0x10#8] with p := { idle with n := false } } (fun t => (t.pc, t.cyc)) =
    some (0x0202#16, 2) := by decide

/-- 95_test_vectors.md VH14: BPL taken, next is on a new page, no crossing. -/
theorem test_VH14_bpl_taken_next_is_on_a :
    after { codeAt 0x10FE#16 [0x10#8, 0x05#8] with p := { idle with n := false } } (fun t => (t.pc, t.cyc)) =
    some (0x1105#16, 3) := by decide

/-- 95_test_vectors.md VH15: BVC taken, displacement 0. -/
theorem test_VH15_bvc_taken_displacement_0 :
    after { code [0x50#8, 0x00#8] with p := { idle with v := false } } (fun t => (t.pc, t.cyc)) =
    some (0x0202#16, 3) := by decide

/-- 95_test_vectors.md VH16: BVS taken, -128. -/
theorem test_VH16_bvs_taken_128 :
    after { code [0x70#8, 0x80#8] with p := { idle with v := true } } (fun t => (t.pc, t.cyc)) =
    some (0x0182#16, 4) := by decide

/-- 95_test_vectors.md VI1: CLC. -/
theorem test_VI1_clc :
    after { code [0x18#8] with p := { idle with c := true } } (fun t => (t.pc, t.cyc, t.p.c)) =
    some (0x0201#16, 2, false) := by decide

/-- 95_test_vectors.md VI2: SEC. -/
theorem test_VI2_sec :
    after (code [0x38#8]) (fun t => (t.pc, t.cyc, t.p.c)) =
    some (0x0201#16, 2, true) := by decide

/-- 95_test_vectors.md VI3: CLI. -/
theorem test_VI3_cli :
    after (code [0x58#8]) (fun t => (t.pc, t.cyc, t.p.i)) =
    some (0x0201#16, 2, false) := by decide

/-- 95_test_vectors.md VI4: SEI. -/
theorem test_VI4_sei :
    after { code [0x78#8] with p := { idle with i := false } } (fun t => (t.pc, t.cyc, t.p.i)) =
    some (0x0201#16, 2, true) := by decide

/-- 95_test_vectors.md VI5: CLD. -/
theorem test_VI5_cld :
    after { code [0xD8#8] with p := { idle with d := true } } (fun t => (t.pc, t.cyc, t.p.d)) =
    some (0x0201#16, 2, false) := by decide

/-- 95_test_vectors.md VI6: SED. -/
theorem test_VI6_sed :
    after (code [0xF8#8]) (fun t => (t.pc, t.cyc, t.p.d)) =
    some (0x0201#16, 2, true) := by decide

/-- 95_test_vectors.md VI7: CLV. -/
theorem test_VI7_clv :
    after { code [0xB8#8] with p := { idle with v := true } } (fun t => (t.pc, t.cyc, t.p.v)) =
    some (0x0201#16, 2, false) := by decide

/-- 95_test_vectors.md VI8: NOP. -/
theorem test_VI8_nop :
    after (code [0xEA#8]) (fun t => (t.pc, t.cyc)) =
    some (0x0201#16, 2) := by decide

/-- 95_test_vectors.md VI9: BRK. -/
theorem test_VI9_brk :
    after { poke (code [0x00#8]) [(0xFFFE#16, 0x00#8), (0xFFFF#16, 0x90#8)] with p := { idle with i := false, z := true, c := true } } (fun t => (t.pc, t.sp, t.cyc, t.p.i, [t.readMem 0x01FB#16, t.readMem 0x01FC#16, t.readMem 0x01FD#16])) =
    some (0x9000#16, 0xFA#8, 7, true, [0x33#8, 0x02#8, 0x02#8]) := by decide

/-- 95_test_vectors.md VI10: BRK with D=1, I=1: D kept, pushed byte 0x3C. -/
theorem test_VI10_brk_with_d_1_i_1 :
    after { poke (code [0x00#8]) [(0xFFFE#16, 0x00#8), (0xFFFF#16, 0x90#8)] with p := { idle with d := true, i := true } } (fun t => (t.pc, t.sp, t.cyc, [t.readMem 0x01FB#16, t.readMem 0x01FC#16, t.readMem 0x01FD#16])) =
    some (0x9000#16, 0xFA#8, 7, [0x3C#8, 0x02#8, 0x02#8]) := by decide

/-- 95_test_vectors.md VI11: RTI. -/
theorem test_VI11_rti :
    after { poke (code [0x40#8]) [(0x01FB#16, 0x33#8), (0x01FC#16, 0x02#8), (0x01FD#16, 0x02#8)] with sp := 0xFA#8 } (fun t => (t.pc, t.sp, t.cyc, [t.p.i, t.p.z, t.p.c])) =
    some (0x0202#16, 0xFD#8, 6, [false, true, true]) := by decide

/-- 95_test_vectors.md VI12: RTI with pushed 0xFF: bits 5,4 ignored. -/
theorem test_VI12_rti_with_pushed_0xff_bits_5 :
    after { poke (code [0x40#8]) [(0x01FB#16, 0xFF#8), (0x01FC#16, 0x34#8), (0x01FD#16, 0x12#8)] with sp := 0xFA#8 } (fun t => (t.pc, t.sp, t.cyc, [t.p.n, t.p.v, t.p.d, t.p.z, t.p.c])) =
    some (0x1234#16, 0xFD#8, 6, [true, true, true, true, true]) := by decide

/-- 95_test_vectors.md VI14: undefined opcode 0x02. -/
theorem test_VI14_undefined_opcode_0x02 :
    faultOf (code [0x02#8]) = some (.illegalOpcode 0x0200#16 0x02#8) := by decide

/-- 95_test_vectors.md VI15: undefined opcode 0xFF. -/
theorem test_VI15_undefined_opcode_0xff :
    faultOf (code [0xFF#8, 0x00#8, 0x00#8]) = some (.illegalOpcode 0x0200#16 0xFF#8) := by decide

/-- 95_test_vectors.md VJ1: NMI taken before the instruction, I=1 ignored. -/
theorem test_VJ1_nmi_taken_before_the_instruction_i :
    after { poke (code [0xEA#8]) [(0xFFFA#16, 0x00#8), (0xFFFB#16, 0xA0#8)] with nmiPending := true } (fun t => (t.pc, t.sp, t.nmiPending, t.cyc, [t.readMem 0x01FB#16, t.readMem 0x01FC#16, t.readMem 0x01FD#16])) =
    some (0xA000#16, 0xFA#8, false, 7, [0x24#8, 0x00#8, 0x02#8]) := by decide

/-- 95_test_vectors.md VJ2: IRQ with I=0. -/
theorem test_VJ2_irq_with_i_0 :
    after { poke (code [0xEA#8]) [(0xFFFE#16, 0x00#8), (0xFFFF#16, 0x90#8)] with irqLine := true, p := { idle with i := false, c := true } } (fun t => (t.pc, t.sp, t.cyc, t.p.i, [t.readMem 0x01FB#16, t.readMem 0x01FC#16, t.readMem 0x01FD#16])) =
    some (0x9000#16, 0xFA#8, 7, true, [0x21#8, 0x00#8, 0x02#8]) := by decide

/-- 95_test_vectors.md VJ3: IRQ masked by I=1: the NOP runs. -/
theorem test_VJ3_irq_masked_by_i_1_the :
    after { poke (code [0xEA#8]) [(0xFFFE#16, 0x00#8), (0xFFFF#16, 0x90#8)] with irqLine := true, p := { idle with i := true } } (fun t => (t.pc, t.cyc)) =
    some (0x0201#16, 2) := by decide

/-- 95_test_vectors.md VJ9: NMI pending at an undefined opcode: NMI first. -/
theorem test_VJ9_nmi_pending_at_an_undefined_opcode :
    after { poke (code [0x02#8]) [(0xFFFA#16, 0x00#8), (0xFFFB#16, 0xA0#8)] with nmiPending := true } (fun t => (t.pc, t.sp, t.nmiPending, t.cyc, [t.readMem 0x01FB#16, t.readMem 0x01FC#16, t.readMem 0x01FD#16])) =
    some (0xA000#16, 0xFA#8, false, 7, [0x24#8, 0x00#8, 0x02#8]) := by decide

/-! ## The bus (R62) -/

/-- R62, R55: fetch, pointer low, pointer high, store. -/
theorem test_bus_sta_indy :
    stepTrace { poke (code [0x91#8, 0x86#8]) [(0x0086#16, 0xF8#8), (0x0087#16, 0x40#8)] with a := 0xA5#8, y := 0x10#8 } =
      [.read 0x0200#16, .read 0x0201#16, .read 0x0086#16, .read 0x0087#16, .write 0x4108#16 0xA5#8] := by decide

/-- R220: an IRQ entry makes three writes, then the two vector reads, and fetches nothing. -/
theorem test_bus_irq :
    stepTrace { code [0xEA#8] with irqLine := true, p := { idle with i := false } } =
      [.write 0x01FD#16 0x02#8, .write 0x01FC#16 0x00#8, .write 0x01FB#16 0x20#8,
       .read 0xFFFE#16, .read 0xFFFF#16] := by decide

/-! ## `execute` (95_test_vectors.md VK4 to VK14) -/

/-- VK4, VK5: a budget that is not positive runs nothing. -/
theorem test_VK4_VK5 :
    (execute 0 (code [0xEA#8])).used = 0 ∧ (execute (-5) (code [0xEA#8])).state.pc = 0x0200#16 := by decide

/-- VK8: the second NOP runs, overshoot 1. -/
theorem test_VK8 :
    ((execute 3 (code [0xEA#8, 0xEA#8, 0xEA#8])).used, (execute 3 (code [0xEA#8, 0xEA#8, 0xEA#8])).state.pc) =
      (4, 0x0202#16) := by decide

/-- VK14: a fault at the first fetch. -/
theorem test_VK14 :
    ((execute 1 (code [0x02#8])).used, (execute 1 (code [0x02#8])).stop) =
      (0, some (.fault (.illegalOpcode 0x0200#16 0x02#8))) := by decide

/-- R38: the stack pointer is read as the true address; R235: an NMI edge sets the latch. -/
theorem test_host_calls :
    (hostCall .readStackPointer (code [])).2 = .word 0x01FD#16 ∧
      (hostCall .raiseNmi (code [])).1.nmiPending = true ∧ (hostCall (.setIrq true) (code [])).1.irqLine = true := by
  decide

/-! ## Witnesses: every statement's hypotheses can be met -/

/-- A store of 0x5A to the zero page, from a state whose memory lists bytes. -/
def storing : State := { code [0x85#8, 0x10#8] with a := 0x5A#8 }

/-- A pending NMI, with I set. -/
def nmiDue : State := { code [0xEA#8] with nmiPending := true }

/-- The IRQ line at 1 with I clear. -/
def irqDue : State := { code [0xEA#8] with irqLine := true, p := { idle with i := false } }

/-- The IRQ line at 1 with I set. -/
def irqMasked : State := { code [0xEA#8] with irqLine := true }

theorem witness_StepKeepsInvariant : storing.Inv ∧ ∃ t, step storing = .next t :=
  ⟨by unfold State.Inv; decide, _, rfl⟩

theorem witness_HostCallKeepsInvariant : storing.Inv ∧ nmiDue.Inv :=
  ⟨by unfold State.Inv; decide, by unfold State.Inv; decide⟩

theorem witness_DecodeOfEncode :
    (Instr.ldaAbsx 0xFFFF#16).wellFormed = true ∧ (Instr.undefined 0xFF#8).wellFormed = true := by decide

theorem witness_EncodeOfDecode : decode [0x8D#8, 0x10#8, 0x03#8, 0x4C#8] = .ok (.staAbs 0x0310#16, [0x4C#8]) := rfl

theorem witness_StepRunsDecodedInstruction_line_low :
    storing.nmiPending = false ∧ (storing.irqLine = false ∨ storing.p.i = true) ∧
      decode [storing.readMem storing.pc, storing.readMem (storing.pc + 1#16), storing.readMem (storing.pc + 2#16)] =
        .ok (.staZp 0x10#8, [0x00#8]) := ⟨rfl, .inl rfl, rfl⟩

theorem witness_StepRunsDecodedInstruction_masked :
    irqMasked.nmiPending = false ∧ (irqMasked.irqLine = false ∨ irqMasked.p.i = true) ∧
      decode [irqMasked.readMem irqMasked.pc, irqMasked.readMem (irqMasked.pc + 1#16),
        irqMasked.readMem (irqMasked.pc + 2#16)] = .ok (.nop, [0x00#8, 0x00#8]) := ⟨rfl, .inr rfl, rfl⟩

theorem witness_NmiIsEntered : nmiDue.nmiPending = true := by decide

theorem witness_IrqIsEntered : irqDue.nmiPending = false ∧ irqDue.irqLine = true ∧ irqDue.p.i = false := by decide

theorem witness_IrqIsMaskedByI :
    (irqMasked.nmiPending = false ∧ irqMasked.p.i = true) ∧ irqMasked.irqLine = true ∧
      ∃ t, exec .cli irqMasked = .next t ∧ t.p.i = false := ⟨by decide, rfl, _, rfl, rfl⟩

/-- R213: after the entry the next boundary finds no request. -/
theorem witness_StepsDoNotRaiseInterrupts :
    (∃ t, step nmiDue = .next t) ∧ (∃ t, step irqDue = .next t) ∧ ∃ t, exec .nop nmiDue = .next t :=
  ⟨⟨_, rfl⟩, ⟨_, rfl⟩, ⟨_, rfl⟩⟩

/-- Both sides of the fault statement's equivalence are met. -/
theorem witness_StepFaultsExactlyOnUndefinedOpcodes :
    (code [0x02#8]).quiet ∧ ((code [0x02#8]).readMem (code [0x02#8]).pc).toNat ∈ undefinedOpcodes ∧
      faultOf (code [0x02#8]) = some (.illegalOpcode 0x0200#16 0x02#8) :=
  ⟨⟨rfl, .inl rfl⟩, by decide, by decide⟩

/-- A defined instruction is no undefined one. -/
theorem witness_StepFaultsExactly_completes : ∀ op, Instr.rti ≠ .undefined op := by
  intro op h; cases h

/-- The bounds 2 and 7 are both reached. -/
theorem witness_StepCostsTwoToSeven :
    after (code [0xEA#8]) (fun t => t.cyc) = some 2 ∧ after (code [0xFE#8, 0xFF#8, 0x30#8]) (fun t => t.cyc) = some 7 := by
  decide

/-- A `+` opcode that crosses, one that does not, and a taken branch that crosses. -/
theorem witness_CyclesAreBasePlusPenalty :
    (∃ t, exec (.ldaAbsx 0x12F0#16) { code [] with x := 0x10#8 } = .next t) ∧
      (∃ t, exec (.ldaAbsx 0x12F0#16) { code [] with x := 0x0F#8 } = .next t) ∧
      ∃ t, exec (.bne 0x80#8) (code []) = .next t := ⟨⟨_, rfl⟩, ⟨_, rfl⟩, ⟨_, rfl⟩⟩

/-- A branch that is not taken, at the top of memory. -/
theorem witness_PcAdvancesByLength :
    (∃ t, exec (.bcs 0x10#8) (codeAt 0xFFFE#16 []) = .next t) ∧
      transfersControl (.bcs 0x10#8) (codeAt 0xFFFE#16 []) = false := ⟨⟨_, rfl⟩, by decide⟩

/-- NOP writes no flag and completes. -/
theorem witness_FlagsChangeOnlyByTheirWriters :
    (∃ t, exec .nop storing = .next t) ∧ writesC .nop = false ∧ writesZN .nop = false ∧ writesI .nop = false ∧
      writesD .nop = false ∧ writesV .nop = false := ⟨⟨_, rfl⟩, by decide⟩

/-- A store writes no register and completes. -/
theorem witness_RegistersChangeOnlyByTheirWriters :
    (∃ t, exec (.staZp 0x10#8) storing = .next t) ∧ writesA (.staZp 0x10#8) = false ∧
      writesX (.staZp 0x10#8) = false ∧ writesY (.staZp 0x10#8) = false ∧ writesSp (.staZp 0x10#8) = false :=
  ⟨⟨_, rfl⟩, by decide⟩

theorem witness_MemWriteThenRead : (0x0000#16 : Word) ≠ 0xFFFF#16 := by decide

/-- Two orders of writing. -/
theorem witness_EqualReadsGiveEqualMemory :
    let s := poke State.reset [(0x0010#16, 1#8), (0x0020#16, 2#8)]
    let t := poke State.reset [(0x0020#16, 2#8), (0x0010#16, 1#8)]
    s.Inv ∧ t.Inv ∧ ∀ a : Word, s.readMem a = t.readMem a :=
  ⟨by unfold State.Inv; decide, by unfold State.Inv; decide, fun _ => rfl⟩

/-- The contents of R55's examples, and an address whose low byte is the last that does not wrap. -/
theorem witness_SixteenBitReads :
    let s := poke State.reset [(0x00FF#16, 0x34#8), (0x0000#16, 0x12#8), (0x0100#16, 0x99#8), (0x0200#16, 0x40#8)]
    loByte 0x02FE#16 ≠ 0xFF#8 ∧ s.readMem 0x00FF#16 = 0x34#8 ∧ s.readMem 0x0000#16 = 0x12#8 ∧
      s.readMem 0x0100#16 = 0x99#8 ∧ s.readMem 0x02FF#16 = 0x00#8 ∧ s.readMem 0x0200#16 = 0x40#8 := by decide

theorem witness_PushAndPull : (0x01FC#16 : Word) ≠ mkWord 0x01#8 storing.sp := by decide

theorem witness_MemoryChangesByTheTransactions : ∃ t, exec (.incAbs 0xFFFF#16) storing = .next t := ⟨_, rfl⟩

/-- The neighbour of the byte a store writes, and a byte outside an interrupt's frame. -/
theorem witness_UnwrittenBytesAreKept :
    ((∃ t, step storing = .next t) ∧ ∀ x ∈ stepTrace storing, x.writes 0x0011#16 = false) ∧
      (∃ t, step nmiDue = .next t) ∧ ∀ x ∈ stepTrace nmiDue, x.writes 0x01FA#16 = false :=
  ⟨⟨⟨_, rfl⟩, by decide⟩, ⟨_, rfl⟩, by decide⟩

/-- The largest BCD byte and the smallest. -/
theorem witness_DecimalAddArithmetic : validBcd 0x99#8 ∧ validBcd 0x00#8 := by unfold validBcd; decide

theorem witness_DecimalSubtractArithmetic : validBcd 0x00#8 ∧ validBcd 0x99#8 := by unfold validBcd; decide

/-- A byte beside the one a store or a read-modify-write of memory writes, at the page's end. -/
theorem witness_WriteForms : (0x0010#16 : Word) ≠ (writeZpx { code [] with x := 0xFF#8 } 0x10#8 4).ea := by decide

/-- The slots of a stack that wraps are distinct from the byte below them. -/
theorem witness_stack_frames :
    let s := { code [] with sp := 0x00#8 }
    stackSlot s 0 = 0x0100#16 ∧ stackSlot s 1 = 0x01FF#16 ∧ (0x01FD#16 : Word) ≠ stackSlot s 0 ∧
      (0x01FD#16 : Word) ≠ stackSlot s 1 ∧ (0x01FD#16 : Word) ≠ stackSlot s 2 := by decide

theorem witness_ReturnAfterCall : ∃ t, exec (.jsr 0xC000#16) { code [] with sp := 0x00#8 } = .next t := ⟨_, rfl⟩

/-- Both sides of each branch's condition are met: by clear flags, and by set ones. -/
theorem witness_BranchesComplete :
    let s := code []
    let t := { code [] with p := { idle with c := true, z := true, n := true, v := true } }
    (s.p.c = false ∧ s.p.z = false ∧ s.p.n = false ∧ s.p.v = false) ∧
      t.p.c = true ∧ t.p.z = true ∧ t.p.n = true ∧ t.p.v = true := by decide

theorem witness_ReturnAfterEntry :
    (nmiDue.nmiPending = true ∧ ∃ t, step nmiDue = .next t) ∧
      ((irqDue.irqLine = true ∧ irqDue.p.i = false) ∧ ∃ t, step irqDue = .next t) ∧
      ∃ t, exec .brk storing = .next t :=
  ⟨⟨rfl, _, rfl⟩, ⟨⟨rfl, rfl⟩, _, rfl⟩, _, rfl⟩

theorem witness_NonPositiveBudgetRunsNothing : (0 : Int) ≤ 0 ∧ (-5 : Int) ≤ 0 := by decide

/-- A positive budget after which no fault has ended the call. -/
theorem witness_ExecuteMeetsItsBudget : (0 : Int) < 1 ∧ (execute 1 (code [0xEA#8])).stop = none := by decide

/-- The two small budgets, with a step that completes. -/
theorem witness_ExecuteMeetsItsBudget_small :
    ((0 : Int) < 1 ∧ (1 : Int) ≤ 2) ∧ ((0 : Int) < 2 ∧ (2 : Int) ≤ 2) ∧ ∃ t, step storing = .next t :=
  ⟨by decide, by decide, _, rfl⟩

theorem witness_ExecuteRunsStepAfterStep :
    (0 : Int) < 100 ∧ (∃ t, step storing = .next t) ∧ ∃ f, step (code [0x02#8]) = .fault f :=
  ⟨by decide, ⟨_, rfl⟩, _, rfl⟩

/-- An NMI request still pending after `execute` was pending before it. -/
theorem witness_HostCallsTakeEffect : (execute 0 nmiDue).state.nmiPending = true := by decide

/-- VK12 with one completed instruction: the second step of the call faults. -/
theorem witness_ExecuteEndsAtTheFault :
    (execute 100 (code [0xEA#8, 0x02#8])).stop = some (.fault (.illegalOpcode 0x0201#16 0x02#8)) := by decide

end Sys2Proof.Tests
end

/-! SUPPORT. What an instruction that completes does, once for all of them: every meaning is one of the access classes
of R114, one implied operation, or one of the six control transfers. -/

namespace Sys2Proof.Machine

/-! ## The effects, by mnemonic -/

/-- What a read-class mnemonic makes of its operand value (R120 to R122, R140 to R151); no other mnemonic has one. -/
def readEffect : Mnemonic → Byte → State → State
  | .LDA, m, s => s.loadA m
  | .LDX, m, s => s.loadX m
  | .LDY, m, s => s.loadY m
  | .AND, m, s => s.loadA (s.a &&& m)
  | .ORA, m, s => s.loadA (s.a ||| m)
  | .EOR, m, s => s.loadA (s.a ^^^ m)
  | .BIT, m, s => { s with p := bitTestFlags s.a m s.p }
  | .ADC, m, s => s.loadAlu (adcResult s.a m s.p)
  | .SBC, m, s => s.loadAlu (sbcResult s.a m s.p)
  | .CMP, m, s => { s with p := compareFlags s.a m s.p }
  | .CPX, m, s => { s with p := compareFlags s.x m s.p }
  | .CPY, m, s => { s with p := compareFlags s.y m s.p }
  | _, _, s => s

/-- What an implied instruction that does not transfer control does before its end (R130 to R139, R162 to R165, R190
to R197); no other mnemonic has such an effect. -/
def impliedEffect : Mnemonic → State → State
  | .TAX, s => s.loadX s.a
  | .TAY, s => s.loadY s.a
  | .TXA, s => s.loadA s.x
  | .TYA, s => s.loadA s.y
  | .TSX, s => s.loadX s.sp
  | .TXS, s => { s with sp := s.x }
  | .PHA, s => s.push s.a
  | .PHP, s => s.push (pImage true s.p)
  | .PLA, s => s.pulled.loadA s.pullByte
  | .PLP, s => { s.pulled with p := pLoad s.pullByte s.p }
  | .INX, s => s.loadX (s.x + 1#8)
  | .INY, s => s.loadY (s.y + 1#8)
  | .DEX, s => s.loadX (s.x - 1#8)
  | .DEY, s => s.loadY (s.y - 1#8)
  | .CLC, s => { s with p := { s.p with c := false } }
  | .SEC, s => { s with p := { s.p with c := true } }
  | .CLI, s => { s with p := { s.p with i := false } }
  | .SEI, s => { s with p := { s.p with i := true } }
  | .CLD, s => { s with p := { s.p with d := false } }
  | .SED, s => { s with p := { s.p with d := true } }
  | .CLV, s => { s with p := { s.p with v := false } }
  | _, s => s

/-- The addressing mode of a source (R103 to R112). -/
def Source.operand : Source → Operand
  | .imm b => .immediate b
  | .mem m => .memory m

/-- R118: the length of a read-class instruction is that of its mode. -/
theorem Source.length_eq (src : Source) : src.length = 1 + src.operand.bytesConsumed := by
  cases src <;> rfl

/-! ## Every instruction by its class -/

/-- `ExecForm i f`: the instruction `i` completes from every state, and `f` gives the state after it. -/
inductive ExecForm : Instr → (State → State) → Prop where
  /-- Reads of the operand or a literal (R114). -/
  | read {i : Instr} (src : Source) (base : Nat) (hc : accessClass i = .read) (ho : instrOperand i = src.operand) :
      ExecForm i (readClass (readEffect (mnemonicOf i)) src base)
  /-- Stores (R114). -/
  | store {i : Instr} (m : MemMode) (base : Nat) (hc : accessClass i = .store) (ho : instrOperand i = .memory m) :
      ExecForm i (fun s => storeClass (storedByte i s) m base s)
  /-- Read-modify-writes of memory (R114). -/
  | rmw {i : Instr} (m : MemMode) (base : Nat) (hc : accessClass i = .readModifyWrite)
      (ho : instrOperand i = .memory m) :
      ExecForm i (rmwMemory (rmwOpOf i) m base)
  /-- Accumulator forms (R114). -/
  | accumulator {i : Instr} (base : Nat) (hc : accessClass i = .accumulator) (ho : instrOperand i = .accumulator) :
      ExecForm i (rmwAccumulator (rmwOpOf i) base)
  /-- Implied instructions that go on to the next one. -/
  | implied {i : Instr} (base : Nat) (hc : accessClass i = .none) (ho : instrOperand i = .implied) :
      ExecForm i (fun s => (impliedEffect (mnemonicOf i) s).advance 1 base)
  /-- The eight branches (R174). -/
  | branch {i : Instr} (d : Byte) (base : Nat) (ho : instrOperand i = .relative d) :
      ExecForm i (fun s => branchIf (branchTaken i s) d base s)
  /-- R170. -/
  | jmpAbs (w : Word) : ExecForm (.jmpAbs w) (fun s => s.jump w 3)
  /-- R170, R110. -/
  | jmpInd (w : Word) : ExecForm (.jmpInd w) (fun s => s.jump (s.read16PageWrap w) 5)
  /-- R172. -/
  | jsr (w : Word) : ExecForm (.jsr w) (fun s => (s.pushWord (s.pc + 2#16)).jump w 6)
  /-- R173. -/
  | rts : ExecForm .rts (fun s => s.pulled.pulled.jump (mkWord s.pulled.pullByte s.pullByte + 1#16) 6)
  /-- R198. -/
  | brk : ExecForm .brk (fun s => s.interruptEntry Config.vecIrq (s.pc + 2#16) true 7)
  /-- R199. -/
  | rti : ExecForm .rti (fun s => s.interruptReturn 6)

/-- Every instruction but the undefined ones completes from every state, in one of the forms. -/
theorem exec_form (i : Instr) :
    (∃ op, i = .undefined op) ∨ ∃ f, ExecForm i f ∧ ∀ s, exec i s = .next (f s) := by
  cases i with
  | ldaImm _ | ldxImm _ | ldyImm _ | andImm _ | oraImm _ | eorImm _ | adcImm _ | sbcImm _ | cmpImm _ | cpxImm _
  | cpyImm _ =>
    exact .inr ⟨_, .read (.imm _) _ rfl rfl, fun _ => rfl⟩
  | ldaZp _ | ldaZpx _ | ldaAbs _ | ldaAbsx _ | ldaAbsy _ | ldaIndx _ | ldaIndy _ | ldxZp _ | ldxZpy _ | ldxAbs _
  | ldxAbsy _ | ldyZp _ | ldyZpx _ | ldyAbs _ | ldyAbsx _ | andZp _ | andZpx _ | andAbs _ | andAbsx _ | andAbsy _
  | andIndx _ | andIndy _ | oraZp _ | oraZpx _ | oraAbs _ | oraAbsx _ | oraAbsy _ | oraIndx _ | oraIndy _ | eorZp _
  | eorZpx _ | eorAbs _ | eorAbsx _ | eorAbsy _ | eorIndx _ | eorIndy _ | bitZp _ | bitAbs _ | adcZp _ | adcZpx _
  | adcAbs _ | adcAbsx _ | adcAbsy _ | adcIndx _ | adcIndy _ | sbcZp _ | sbcZpx _ | sbcAbs _ | sbcAbsx _ | sbcAbsy _
  | sbcIndx _ | sbcIndy _ | cmpZp _ | cmpZpx _ | cmpAbs _ | cmpAbsx _ | cmpAbsy _ | cmpIndx _ | cmpIndy _ | cpxZp _
  | cpxAbs _ | cpyZp _ | cpyAbs _ =>
    exact .inr ⟨_, .read (.mem _) _ rfl rfl, fun _ => rfl⟩
  | staZp _ | staZpx _ | staAbs _ | staAbsx _ | staAbsy _ | staIndx _ | staIndy _ | stxZp _ | stxZpy _ | stxAbs _
  | styZp _ | styZpx _ | styAbs _ =>
    exact .inr ⟨_, .store _ _ rfl rfl, fun _ => rfl⟩
  | incZp _ | incZpx _ | incAbs _ | incAbsx _ | decZp _ | decZpx _ | decAbs _ | decAbsx _ | aslZp _ | aslZpx _
  | aslAbs _ | aslAbsx _ | lsrZp _ | lsrZpx _ | lsrAbs _ | lsrAbsx _ | rolZp _ | rolZpx _ | rolAbs _ | rolAbsx _
  | rorZp _ | rorZpx _ | rorAbs _ | rorAbsx _ =>
    exact .inr ⟨_, .rmw _ _ rfl rfl, fun _ => rfl⟩
  | aslAcc | lsrAcc | rolAcc | rorAcc =>
    exact .inr ⟨_, .accumulator _ rfl rfl, fun _ => rfl⟩
  | tax | tay | txa | tya | tsx | txs | pha | php | pla | plp | inx | iny | dex | dey | clc | sec | cli | sei | cld
  | sed | clv | nop =>
    exact .inr ⟨_, .implied _ rfl rfl, fun _ => rfl⟩
  | bcc _ | bcs _ | beq _ | bne _ | bmi _ | bpl _ | bvc _ | bvs _ =>
    exact .inr ⟨_, .branch _ _ rfl, fun _ => rfl⟩
  | jmpAbs w => exact .inr ⟨_, .jmpAbs w, fun _ => rfl⟩
  | jmpInd w => exact .inr ⟨_, .jmpInd w, fun _ => rfl⟩
  | jsr w => exact .inr ⟨_, .jsr w, fun _ => rfl⟩
  | rts => exact .inr ⟨_, .rts, fun _ => rfl⟩
  | brk => exact .inr ⟨_, .brk, fun _ => rfl⟩
  | rti => exact .inr ⟨_, .rti, fun _ => rfl⟩
  | undefined op => exact .inl ⟨op, rfl⟩

/-- Everything an instruction that answers a next state can have done. -/
theorem exec_cases {i : Instr} {s t : State} (h : exec i s = .next t) : ∃ f, ExecForm i f ∧ t = f s := by
  rcases exec_form i with ⟨op, rfl⟩ | ⟨f, hf, he⟩
  · cases h
  · exact ⟨f, hf, Host.Outcome.next.inj (h.symm.trans (he s))⟩

end Sys2Proof.Machine

/-! SUPPORT. The fields that whole groups of instructions leave alone, and the statements about the state that follow
from them. -/

namespace Sys2Proof.Machine

open Sys2Proof.Claims

/-! ## What the effects leave alone -/

theorem readEffect_mem (m : Mnemonic) (v : Byte) (s : State) : (readEffect m v s).mem = s.mem := by cases m <;> rfl

theorem readEffect_pc (m : Mnemonic) (v : Byte) (s : State) : (readEffect m v s).pc = s.pc := by cases m <;> rfl

theorem readEffect_latches (m : Mnemonic) (v : Byte) (s : State) :
    (readEffect m v s).irqLine = s.irqLine ∧ (readEffect m v s).nmiPending = s.nmiPending := by
  cases m <;> exact ⟨rfl, rfl⟩

theorem impliedEffect_pc (m : Mnemonic) (s : State) : (impliedEffect m s).pc = s.pc := by cases m <;> rfl

theorem impliedEffect_latches (m : Mnemonic) (s : State) :
    (impliedEffect m s).irqLine = s.irqLine ∧ (impliedEffect m s).nmiPending = s.nmiPending := by
  cases m <;> exact ⟨rfl, rfl⟩

/-! ## The invariant -/

/-- Of the implied instructions only the two pushes write memory. -/
theorem impliedEffect_keeps_inv (m : Mnemonic) {s : State} (h : s.Inv) : (impliedEffect m s).Inv := by
  cases m with
  | PHA | PHP => exact State.wf_push _ h
  | _ => exact h

/-- An instruction that completes keeps memory in its canonical form. -/
theorem ExecForm.keeps_inv {i : Instr} {f : State → State} (hf : ExecForm i f) {s : State} (h : s.Inv) :
    (f s).Inv := by
  cases hf with
  | read src base => exact (congrArg Memory.wf (readEffect_mem ..)).trans h
  | store m | rmw m => exact State.wf_writeMem (m.ea s) _ h
  | implied => exact impliedEffect_keeps_inv _ h
  | branch d base => exact (congrArg Memory.wf (branchIf_mem ..)).trans h
  | accumulator | jmpAbs | jmpInd | rts | rti => exact h
  | jsr => exact State.wf_pushWord _ h
  | brk => exact State.wf_interruptEntry _ _ _ _ h

/-- Settles O4: an interrupt entry only pushes, and every form of instruction keeps the canonical form. -/
theorem stepKeepsInvariant : Obligations.StepKeepsInvariant := by
  intro s t h hstep
  rcases step_cases hstep with ⟨-, rfl⟩ | ⟨-, -, -, rfl⟩ | ⟨-, hexec⟩
  · exact State.wf_interruptEntry (s := { s with nmiPending := false }) _ _ _ _ h
  · exact State.wf_interruptEntry _ _ _ _ h
  · obtain ⟨f, hf, rfl⟩ := exec_cases hexec
    exact hf.keeps_inv h

/-! ## PC (R23, R118) -/

/-- R118: an encoding has one byte more than the mode consumes. -/
theorem encode_length (i : Instr) : (encode i).length = 1 + (instrOperand i).bytesConsumed := by cases i <;> rfl

/-- Settles O17: an instruction that goes on to the next one ends with `advance` by its mode's length, and a branch
that is not taken goes to PC + 2. -/
theorem pcAdvancesByLength : Obligations.PcAdvancesByLength := by
  intro i s t h hnt
  obtain ⟨f, hf, rfl⟩ := exec_cases h
  rw [encode_length]
  cases hf with
  | read src base hc ho => rw [ho, ← src.length_eq, readClass, State.advance_pc, readEffect_pc]
  | store m base hc ho | rmw m base hc ho => rw [ho]; rfl
  | accumulator base hc ho => rw [ho]; rfl
  | implied base hc ho => rw [ho, State.advance_pc, impliedEffect_pc]; rfl
  | branch d base ho =>
    have hc : branchTaken i s = false := (Bool.or_eq_false_iff.1 hnt).2
    rw [ho, branchIf_pc, hc]; rfl
  | jmpAbs | jmpInd | jsr | rts | brk | rti => cases hnt

/-! ## The flags by their writers (R25) -/

/-- The flags whose rows do not name the instruction are the same in both values of the status. -/
def FlagsKept (i : Instr) (p q : Status) : Prop :=
  (writesC i = false → q.c = p.c) ∧ (writesZN i = false → q.z = p.z ∧ q.n = p.n) ∧ (writesI i = false → q.i = p.i) ∧
    (writesD i = false → q.d = p.d) ∧ (writesV i = false → q.v = p.v)

theorem FlagsKept.refl (i : Instr) (p : Status) : FlagsKept i p p :=
  ⟨fun _ => rfl, fun _ => ⟨rfl, rfl⟩, fun _ => rfl, fun _ => rfl, fun _ => rfl⟩

theorem readEffect_flagsKept (i : Instr) (v : Byte) (s : State) :
    FlagsKept i s.p (readEffect (mnemonicOf i) v s).p := by
  cases hm : mnemonicOf i with
  | LDA | LDX | LDY | AND | ORA | EOR => simp [FlagsKept, writesZN, hm, readEffect]
  | CMP | CPX | CPY => simp [FlagsKept, writesC, writesZN, hm, readEffect]
  | BIT => simp [FlagsKept, writesZN, writesV, hm, readEffect]
  | ADC | SBC => simp [FlagsKept, writesC, writesZN, writesV, hm, readEffect]
  | _ => exact .refl i s.p

theorem rmwOpOf_flagsKept (i : Instr) (v : Byte) (p : Status) : FlagsKept i p (rmwOpOf i v p).2 := by
  unfold rmwOpOf
  cases hm : mnemonicOf i with
  | INC | DEC => simp [FlagsKept, writesZN, hm]
  | ASL | LSR | ROL | ROR => simp [FlagsKept, writesC, writesZN, hm, rolOp_snd, rorOp_snd]
  | _ => exact .refl i p

theorem impliedEffect_flagsKept (i : Instr) (s : State) : FlagsKept i s.p (impliedEffect (mnemonicOf i) s).p := by
  cases hm : mnemonicOf i with
  | TAX | TAY | TXA | TYA | TSX | PLA | INX | INY | DEX | DEY => simp [FlagsKept, writesZN, hm, impliedEffect]
  | PLP => simp [FlagsKept, writesC, writesZN, writesI, writesD, writesV, hm]
  | CLC | SEC => simp [FlagsKept, writesC, hm, impliedEffect]
  | CLI | SEI => simp [FlagsKept, writesI, hm, impliedEffect]
  | CLD | SED => simp [FlagsKept, writesD, hm, impliedEffect]
  | CLV => simp [FlagsKept, writesV, hm, impliedEffect]
  | _ => exact .refl i s.p

/-- Settles O20: the flags an instruction writes are those of its effect by mnemonic; BRK writes I and RTI all six. -/
theorem flagsChangeOnlyByTheirWriters : Obligations.FlagsChangeOnlyByTheirWriters := by
  intro i s t h
  obtain ⟨f, hf, rfl⟩ := exec_cases h
  change FlagsKept i s.p (f s).p
  cases hf with
  | read src => exact readEffect_flagsKept i _ s
  | rmw | accumulator => exact rmwOpOf_flagsKept i _ s.p
  | implied => exact impliedEffect_flagsKept i s
  | branch => rw [branchIf_p]; exact .refl i s.p
  | store | jmpAbs | jmpInd | jsr | rts => exact .refl _ s.p
  | brk => simp [FlagsKept, writesI, mnemonicOf]
  | rti => simp [FlagsKept, writesC, writesZN, writesI, writesD, writesV, mnemonicOf]

/-! ## The registers by their writers (R41) -/

/-- The registers whose rows do not name the instruction are the same in both states. -/
def RegistersKept (i : Instr) (s t : State) : Prop :=
  (writesA i = false → t.a = s.a) ∧ (writesX i = false → t.x = s.x) ∧ (writesY i = false → t.y = s.y) ∧
    (writesSp i = false → t.sp = s.sp)

theorem RegistersKept.of_eq {i : Instr} {s t : State} (ha : t.a = s.a) (hx : t.x = s.x) (hy : t.y = s.y)
    (hsp : t.sp = s.sp) : RegistersKept i s t := ⟨fun _ => ha, fun _ => hx, fun _ => hy, fun _ => hsp⟩

theorem readEffect_registersKept (i : Instr) (v : Byte) (s : State) :
    RegistersKept i s (readEffect (mnemonicOf i) v s) := by
  cases hm : mnemonicOf i with
  | LDA | AND | ORA | EOR | ADC | SBC => simp [RegistersKept, writesA, hm, readEffect]
  | LDX => simp [RegistersKept, writesX, hm, readEffect]
  | LDY => simp [RegistersKept, writesY, hm, readEffect]
  | _ => exact .of_eq rfl rfl rfl rfl

theorem impliedEffect_registersKept (i : Instr) (s : State) :
    RegistersKept i s (impliedEffect (mnemonicOf i) s) := by
  cases hm : mnemonicOf i with
  | TXA | TYA => simp [RegistersKept, writesA, hm, impliedEffect]
  | TAX | TSX | INX | DEX => simp [RegistersKept, writesX, hm, impliedEffect]
  | TAY | INY | DEY => simp [RegistersKept, writesY, hm, impliedEffect]
  | TXS | PHA | PHP | PLP => simp [RegistersKept, writesSp, hm, impliedEffect]
  | PLA => simp [RegistersKept, writesA, writesSp, hm, impliedEffect]
  | _ => exact .of_eq rfl rfl rfl rfl

/-- Settles O21: the registers an instruction writes are those of its effect by mnemonic, A in the accumulator forms
and SP in the calls and returns. -/
theorem registersChangeOnlyByTheirWriters : Obligations.RegistersChangeOnlyByTheirWriters := by
  intro i s t h
  obtain ⟨f, hf, rfl⟩ := exec_cases h
  change RegistersKept i s (f s)
  cases hf with
  | read src => exact readEffect_registersKept i _ s
  | implied => exact impliedEffect_registersKept i s
  | accumulator base hc => exact ⟨fun ha => by simp [writesA, hc] at ha, fun _ => rfl, fun _ => rfl, fun _ => rfl⟩
  | branch => exact .of_eq (branchIf_a ..) (branchIf_x ..) (branchIf_y ..) (branchIf_sp ..)
  | store | rmw | jmpAbs | jmpInd => exact .of_eq rfl rfl rfl rfl
  | jsr | rts | brk | rti => simp [RegistersKept, writesSp, mnemonicOf]

/-! ## The state that nothing reads (R29, R33) -/

/-- The same state with another stored B and more cycles on the counter. -/
def State.withUnread (s : State) (g : Bool → Bool) (k : Nat) : State :=
  { s with p := { s.p with b := g s.p.b }, cyc := s.cyc + k }

section
variable (s : State) (g : Bool → Bool) (k : Nat)

theorem State.withB_eq (b : Bool) : s.withB b = s.withUnread (fun _ => b) 0 := rfl

theorem State.addCycles_eq : s.addCycles k = s.withUnread id k := rfl

theorem State.advance_withUnread (len cycles : Nat) :
    (s.withUnread g k).advance len cycles = (s.advance len cycles).withUnread g k := by
  simp [State.advance, State.withUnread, Nat.add_right_comm]

theorem State.jump_withUnread (target : Word) (cycles : Nat) :
    (s.withUnread g k).jump target cycles = (s.jump target cycles).withUnread g k := by
  simp [State.jump, State.withUnread, Nat.add_right_comm]

theorem readEffect_withUnread (m : Mnemonic) (v : Byte) :
    readEffect m v (s.withUnread g k) = (readEffect m v s).withUnread g k := by cases m <;> rfl

theorem impliedEffect_withUnread (m : Mnemonic) :
    impliedEffect m (s.withUnread g k) = (impliedEffect m s).withUnread g k := by cases m <;> rfl

/-- A read-modify-write neither reads nor writes B. -/
theorem rmwOpOf_withUnread (i : Instr) (v : Byte) :
    rmwOpOf i v (s.withUnread g k).p =
      ((rmwOpOf i v s.p).1, { (rmwOpOf i v s.p).2 with b := g (rmwOpOf i v s.p).2.b }) := by
  unfold rmwOpOf
  cases mnemonicOf i <;> rfl

theorem MemMode.ea_withUnread (m : MemMode) : m.ea (s.withUnread g k) = m.ea s := m.ea_congr rfl rfl rfl

theorem Source.value_withUnread (src : Source) : src.value (s.withUnread g k) = src.value s := by
  cases src with
  | imm => rfl
  | mem m => exact congrArg s.readMem (m.ea_withUnread s g k)

theorem Source.penalty_withUnread (src : Source) : src.penalty (s.withUnread g k) = src.penalty s := by
  cases src with
  | imm => rfl
  | mem m => exact congrArg Bool.toNat (m.crosses_congr rfl rfl rfl)

theorem branchIf_withUnread (cond : Bool) (d : Byte) (base : Nat) :
    branchIf cond d base (s.withUnread g k) = (branchIf cond d base s).withUnread g k := by
  cases cond <;> exact State.jump_withUnread ..

theorem State.push_withUnread (v : Byte) : (s.withUnread g k).push v = (s.push v).withUnread g k := rfl

theorem State.maskIrq_withUnread : (s.withUnread g k).maskIrq = s.maskIrq.withUnread g k := rfl

theorem State.read16_withUnread (a : Word) : (s.withUnread g k).read16 a = s.read16 a := State.read16_congr rfl a

/-- The pushed status byte takes its bit 4 from the entry, not from the stored B (R27). -/
theorem pImage_withUnread (b : Bool) : pImage b (s.withUnread g k).p = pImage b s.p := rfl

/-- An entry pushes no stored B and reads no cycle count. -/
theorem State.interruptEntry_withUnread (vector ret : Word) (b : Bool) (cycles : Nat) :
    (s.withUnread g k).interruptEntry vector ret b cycles =
      (s.interruptEntry vector ret b cycles).withUnread g k := by
  simp only [State.interruptEntry, State.pushFrame, State.pushWord, State.push_withUnread, pImage_withUnread,
    State.maskIrq_withUnread, State.read16_withUnread, State.jump_withUnread]

/-- Every form of instruction takes the unread state through. -/
theorem ExecForm.withUnread {i : Instr} {f : State → State} (hf : ExecForm i f) :
    f (s.withUnread g k) = (f s).withUnread g k := by
  cases hf with
  | read src base =>
    rw [readClass, readClass, src.value_withUnread, src.penalty_withUnread, readEffect_withUnread,
      State.advance_withUnread]
  | store m base =>
    simp only [storeClass, m.ea_withUnread, ← State.advance_withUnread]; rfl
  | rmw m base =>
    simp only [rmwMemory, m.ea_withUnread, rmwOpOf_withUnread, ← State.advance_withUnread]; rfl
  | accumulator base => simp only [rmwAccumulator, rmwOpOf_withUnread, ← State.advance_withUnread]; rfl
  | implied base => simp only [impliedEffect_withUnread, State.advance_withUnread]
  | branch d base => exact branchIf_withUnread ..
  | jmpAbs | jmpInd => exact State.jump_withUnread s ..
  | jsr w => exact State.jump_withUnread (s.pushWord (s.pc + 2#16)) ..
  | rts => exact State.jump_withUnread s.pulled.pulled ..
  | brk => exact State.interruptEntry_withUnread ..
  | rti => exact State.jump_withUnread { s.pulled.pulled.pulled with p := pLoad s.pullByte s.p } ..

theorem exec_withUnread (i : Instr) :
    exec i (s.withUnread g k) = mapNext (fun t => t.withUnread g k) (exec i s) := by
  rcases exec_form i with ⟨op, rfl⟩ | ⟨f, hf, he⟩
  · rfl
  · rw [he, he, hf.withUnread]; rfl

/-- No step reads the stored B or CYC, or changes either by its value. -/
theorem step_withUnread : step (s.withUnread g k) = mapNext (fun t => t.withUnread g k) (step s) := by
  rcases boundary_cases s with hn | ⟨hn, hl, hi⟩ | hq
  · rw [step_nmi hn, step_nmi (s := s.withUnread g k) hn]
    exact congrArg Host.Outcome.next (State.interruptEntry_withUnread { s with nmiPending := false } ..)
  · rw [step_irq hn hl hi, step_irq (s := s.withUnread g k) hn hl hi]
    exact congrArg Host.Outcome.next (State.interruptEntry_withUnread ..)
  · rw [step_quiet hq, step_quiet (s := s.withUnread g k) hq]
    exact exec_withUnread ..

end

/-- Settles O18: B is part of the unread state. -/
theorem breakBitIsInert : Obligations.BreakBitIsInert := by
  intro s b
  simp only [State.withB_eq]
  exact step_withUnread s _ 0

/-- Settles O19: CYC is part of the unread state. -/
theorem cycleCounterIsUnread : Obligations.CycleCounterIsUnread := by
  intro s k
  simp only [State.addCycles_eq]
  exact step_withUnread s id k

/-! ## Canonical memories by their reads (R31, R50) -/

/-- The cells of a canonical memory, by its reads. -/
theorem Memory.mem_iff_read {m : Memory} (h : Memory.wf m = true) (cell : Host.Cell) :
    cell ∈ m ↔ cell.1 < Config.memSize ∧ cell.2 ≠ Config.unlistedByte ∧ Memory.read m cell.1 = cell.2 := by
  obtain ⟨hsorted, hcells⟩ := (Memory.wf_iff m).1 h
  constructor
  · intro hc
    exact ⟨(hcells cell hc).1, (hcells cell hc).2, Memory.read_of_mem hsorted hc⟩
  · rintro ⟨-, hv, hr⟩
    have hlisted : ∃ c ∈ m, c.1 = cell.1 := by
      by_contra hnone
      exact hv (hr.symm.trans (Memory.read_of_not_mem fun c hc he => hnone ⟨c, hc, he⟩))
    obtain ⟨c, hc, he⟩ := hlisted
    have hval : c.2 = cell.2 := (Memory.read_of_mem hsorted hc).symm.trans (he ▸ hr)
    exact (Prod.ext he hval : c = cell) ▸ hc

/-- Canonical memories with the same reads inside the address space are the same list. -/
theorem Memory.eq_of_read_eq {m n : Memory} (hm : Memory.wf m = true) (hn : Memory.wf n = true)
    (h : ∀ a < Config.memSize, Memory.read m a = Memory.read n a) : m = n := by
  have hirrefl : Std.Irrefl fun p q : Host.Cell => p.1 < q.1 := ⟨fun p => Nat.lt_irrefl p.1⟩
  have hantisymm : Std.Antisymm fun p q : Host.Cell => p.1 < q.1 := ⟨fun _ _ hpq hqp => absurd hqp (Nat.lt_asymm hpq)⟩
  refine ((Memory.wf_iff m).1 hm).1.eq_of_mem_iff ((Memory.wf_iff n).1 hn).1 fun cell => ?_
  rw [Memory.mem_iff_read hm, Memory.mem_iff_read hn]
  exact and_congr_right fun ha => by rw [h _ ha]

/-- Settles O24: the reads of every address determine the cells, and the cells' order is fixed. -/
theorem equalReadsGiveEqualMemory : Obligations.EqualReadsGiveEqualMemory := by
  intro s t hs ht h
  exact Memory.eq_of_read_eq hs ht fun a ha => by
    have hword : (BitVec.ofNat 16 a).toNat = a := Nat.mod_eq_of_lt ha
    simpa only [State.readMem, hword] using h (BitVec.ofNat 16 a)

/-! ## The host's calls (R230 to R235) -/

/-- An instruction changes neither latch. -/
theorem ExecForm.latches {i : Instr} {f : State → State} (hf : ExecForm i f) (s : State) :
    (f s).irqLine = s.irqLine ∧ (f s).nmiPending = s.nmiPending := by
  cases hf with
  | read => exact readEffect_latches ..
  | implied => exact impliedEffect_latches ..
  | branch => exact ⟨branchIf_irqLine .., branchIf_nmiPending ..⟩
  | jsr | rts | brk | rti => simp
  | store | rmw | accumulator | jmpAbs | jmpInd => exact ⟨rfl, rfl⟩

/-- A step leaves the line and raises no request. -/
theorem step_latches {s t : State} (h : step s = .next t) :
    t.irqLine = s.irqLine ∧ (t.nmiPending = true → s.nmiPending = true) := by
  rcases step_cases h with ⟨hn, rfl⟩ | ⟨-, -, -, rfl⟩ | ⟨-, hexec⟩
  · exact ⟨State.interruptEntry_irqLine .., fun _ => hn⟩
  · exact ⟨State.interruptEntry_irqLine .., (State.interruptEntry_nmiPending ..).symm.trans⟩
  · obtain ⟨f, hf, rfl⟩ := exec_cases hexec
    exact ⟨(hf.latches s).1, (hf.latches s).2.symm.trans⟩

theorem executeLoop_latches (fuel budget used : Nat) (s : State) :
    (executeLoop fuel budget used s).state.irqLine = s.irqLine ∧
      ((executeLoop fuel budget used s).state.nmiPending = true → s.nmiPending = true) := by
  induction fuel generalizing used s with
  | zero => exact ⟨rfl, id⟩
  | succ fuel ih =>
    rw [executeLoop]
    split
    · split
      next t hstep =>
        obtain ⟨hline, hnmi⟩ := step_latches hstep
        obtain ⟨ihline, ihnmi⟩ := ih (used + (t.cyc - s.cyc)) t
        exact ⟨ihline.trans hline, hnmi ∘ ihnmi⟩
      · exact ⟨rfl, id⟩
      · exact ⟨rfl, id⟩
    · exact ⟨rfl, id⟩

theorem execute_latches (budget : Int) (s : State) :
    (execute budget s).state.irqLine = s.irqLine ∧
      ((execute budget s).state.nmiPending = true → s.nmiPending = true) := by
  rw [execute]
  split
  · exact ⟨rfl, id⟩
  · exact executeLoop_latches ..

/-- R22: the stack address as a sum. -/
theorem State.stackAddr_eq_add (s : State) : s.stackAddr = 0x0100#16 + zext16 s.sp := by
  apply BitVec.eq_of_toNat_eq
  rw [State.stackAddr, mkWord_toNat, BitVec.toNat_add, zext16_toNat]
  have := s.sp.isLt
  show 256 * 1 + s.sp.toNat = (256 + s.sp.toNat) % 65536
  omega

/-- Settles O56: each accessor and each write by its definition; `execute` is a run of steps. -/
theorem hostCallsTakeEffect : Obligations.HostCallsTakeEffect := by
  intro s v w bit
  refine ⟨⟨rfl, rfl, rfl, rfl, ?_, rfl, rfl⟩, ⟨rfl, rfl, rfl, rfl, rfl, rfl, rfl⟩, ⟨rfl, rfl, rfl, rfl, rfl, rfl⟩,
    ⟨rfl, rfl, rfl, rfl, rfl, rfl, rfl⟩, rfl, rfl, fun budget => execute_latches budget s⟩
  rw [hostCall, State.stackAddr_eq_add]

/-! ## Reset (R39) and the status byte (R27, R28) -/

/-- Settles O2: the two unwritten vector bytes are what `reset()` reads from empty memory. -/
theorem resetStateIsAResetCall : Obligations.ResetStateIsAResetCall := ⟨rfl, rfl, rfl, rfl, rfl, rfl⟩

/-- Settles O3: the start state lists no cell. -/
theorem invariantAtReset : Obligations.InvariantAtReset := (Memory.wf_iff []).2 ⟨.nil, by simp⟩

/-- The eight bits of the packed byte by their weights (R27). -/
theorem pImage_toNat (b : Bool) (p : Status) : (pImage b p).toNat =
    128 * p.n.toNat + 64 * p.v.toNat + 32 + 16 * b.toNat + 8 * p.d.toNat + 4 * p.i.toNat + 2 * p.z.toNat +
      p.c.toNat := by
  obtain ⟨n, v, b', d, i, z, c⟩ := p
  simp only [pImage]
  clear b'
  revert b n v d i z c
  decide

theorem pLoad_pImage (b : Bool) (p q : Status) : pLoad (pImage b p) q = { p with b := q.b } := by
  simp [pLoad]

/-- Settles O29: the packed byte by the weights of its bits, the load by its definition, and the bits of the packed
byte read back. -/
theorem statusByte : Obligations.StatusByte := ⟨pImage_toNat, fun _ _ => rfl, pLoad_pImage⟩

end Sys2Proof.Machine

/-! SUPPORT. Memory (20_memory.md): the reads, writes and the stack by their rules, and every step's memory as its
transactions leave it. -/

namespace Sys2Proof.Machine

/-! ## One byte, two bytes, the stack (R51 to R59) -/

/-- Settles O23: the byte written and the others by what a write does to a read; a write is an update of memory only. -/
theorem memWriteThenRead : Obligations.MemWriteThenRead := fun s a _ v =>
  ⟨s.readMem_writeMem_same a v, s.readMem_writeMem_other v, rfl⟩

theorem State.read16PageWrap_mkWord (s : State) (h l : Byte) :
    s.read16PageWrap (mkWord h l) = mkWord (s.readMem (mkWord h (l + 1#8))) (s.readMem (mkWord h l)) := by
  simp [State.read16PageWrap]

/-- The next address is in the same page unless the low byte carries (R54, R55). -/
theorem mkWord_hiByte_loByte_add_one {a : Word} (h : loByte a ≠ 0xFF#8) :
    mkWord (hiByte a) (loByte a + 1#8) = a + 1#16 := by
  have hlo : (loByte a).toNat ≠ 255 := fun e => h (BitVec.eq_of_toNat_eq e)
  apply BitVec.eq_of_toNat_eq
  rw [mkWord_toNat, BitVec.toNat_add, BitVec.toNat_add, hiByte_toNat]
  rw [loByte_toNat] at hlo ⊢
  have := a.isLt
  show 256 * (a.toNat / 256) + (a.toNat % 256 + 1) % 256 = (a.toNat + 1) % 65536
  omega

/-- Settles O25: the reads by their definitions, the wrap within the page when the low byte does not carry, and the
worked examples at the three addresses they name. -/
theorem sixteenBitReads : Obligations.SixteenBitReads := by
  intro s
  refine ⟨fun _ => rfl, fun _ => rfl, s.read16PageWrap_mkWord, fun a h => ?_, fun h34 h12 h99 => ⟨?_, ?_⟩,
    fun h00 h40 => ?_⟩
  · rw [State.read16PageWrap, mkWord_hiByte_loByte_add_one h, State.read16]
  · show mkWord (s.readMem 0x0000#16) (s.readMem 0x00FF#16) = _
    rw [h12, h34]; rfl
  · show mkWord (s.readMem 0x0100#16) (s.readMem 0x00FF#16) = _
    rw [h99, h34]; rfl
  · show mkWord (s.readMem 0x0200#16) (s.readMem 0x02FF#16) = _
    rw [h40, h00]; rfl

/-- Settles O26: a push is one write at the stack address, a pull one read of the slot above SP. -/
theorem pushAndPull : Obligations.PushAndPull := fun s v =>
  ⟨rfl, s.readMem_writeMem_same s.stackAddr v, fun _ => s.readMem_writeMem_other v, rfl, s.pullByte_eq,
    s.pullByte_push v, BitVec.sub_add_cancel s.sp 1#8⟩

/-! ## The transactions of an instruction as a change of memory (R61, R62) -/

/-- The fetch and the pointer reads leave memory alone. -/
theorem applyAccesses_busTrace (i : Instr) (s : State) :
    applyAccesses s.mem (busTrace i s) =
      applyAccesses (applyAccesses s.mem (operandAccesses i s)) (stackAccesses i s) := by
  rw [busTrace, applyAccesses_append, applyAccesses_append, applyAccesses_append, applyAccesses_fetch,
    applyAccesses_pointer]

/-- R62: an instruction's transactions begin with the reads of its encoding's bytes. -/
theorem take_busTrace (i : Instr) (s : State) :
    (busTrace i s).take (encode i).length = fetchAccesses s (instrOperand i).bytesConsumed := by
  rw [busTrace, List.append_assoc, List.append_assoc]
  exact List.take_left' (by simp [fetchAccesses, encode_length, Nat.add_comm])

/-- Of the instructions with an operand only JSR uses the stack. -/
theorem stackAccesses_eq_nil {i : Instr} (ho : instrOperand i ≠ .implied) (hj : ∀ w, i ≠ .jsr w) (s : State) :
    stackAccesses i s = [] := by
  cases i with
  | pha | php | pla | plp | rts | brk | rti => exact absurd rfl ho
  | jsr w => exact absurd rfl (hj w)
  | _ => rfl

theorem applyAccesses_operand_read {i : Instr} {src : Source} (hc : accessClass i = .read)
    (ho : instrOperand i = src.operand) (m : Memory) (s : State) : applyAccesses m (operandAccesses i s) = m := by
  cases src <;> simp [operandAccesses, hc, ho, Source.operand, applyAccesses]

theorem operandAccesses_store {i : Instr} {m : MemMode} (hc : accessClass i = .store)
    (ho : instrOperand i = .memory m) (s : State) : operandAccesses i s = [.write (m.ea s) (storedByte i s)] := by
  simp [operandAccesses, hc, ho]

theorem operandAccesses_rmw {i : Instr} {m : MemMode} (hc : accessClass i = .readModifyWrite)
    (ho : instrOperand i = .memory m) (s : State) :
    operandAccesses i s = [.read (m.ea s), .write (m.ea s) (rmwOpOf i (s.readMem (m.ea s)) s.p).1] := by
  simp [operandAccesses, hc, ho]

theorem operandAccesses_eq_nil {i : Instr} (ho : ∀ m, instrOperand i ≠ .memory m) (s : State) :
    operandAccesses i s = [] := by
  unfold operandAccesses
  split
  · next m hm => exact absurd hm (ho m)
  · rfl

/-- Of the implied instructions that go on to the next one only PHA and PHP write memory, each by one push. -/
theorem impliedEffect_mem {i : Instr} (ho : instrOperand i = .implied) (hb : i ≠ .brk) (s : State) :
    (impliedEffect (mnemonicOf i) s).mem = applyAccesses s.mem (stackAccesses i s) := by
  cases i with
  | pha | php => exact (applyAccesses_push s [_]).symm
  | pla | plp | rts | rti => exact (applyAccesses_pull s.mem s _).symm
  | brk => exact absurd rfl hb
  | tax | tay | txa | tya | tsx | txs | inx | iny | dex | dey | clc | sec | cli | sei | cld | sed | clv | nop
  | undefined => rfl
  | _ => cases ho

/-- Every form of instruction changes memory as its transactions say; BRK does so as an interrupt entry, by
`applyAccesses_entry`. -/
theorem ExecForm.mem_eq {i : Instr} {f : State → State} (hf : ExecForm i f) (hb : i ≠ .brk) (s : State) :
    (f s).mem = applyAccesses s.mem (busTrace i s) := by
  rw [applyAccesses_busTrace]
  cases hf with
  | read src base hc ho =>
    rw [applyAccesses_operand_read hc ho,
      stackAccesses_eq_nil (by cases src <;> simp [ho, Source.operand]) (by rintro w rfl; cases hc)]
    exact readEffect_mem ..
  | store m base hc ho =>
    rw [operandAccesses_store hc ho, stackAccesses_eq_nil (by simp [ho]) (by rintro w rfl; cases hc)]
    rfl
  | rmw m base hc ho =>
    rw [operandAccesses_rmw hc ho, stackAccesses_eq_nil (by simp [ho]) (by rintro w rfl; cases hc)]
    rfl
  | accumulator base hc ho =>
    rw [operandAccesses_eq_nil (by simp [ho]), stackAccesses_eq_nil (by simp [ho]) (by rintro w rfl; cases hc)]
    rfl
  | implied base hc ho =>
    rw [operandAccesses_eq_nil (by simp [ho])]
    exact impliedEffect_mem ho hb s
  | branch d base ho =>
    rw [operandAccesses_eq_nil (by simp [ho]), stackAccesses_eq_nil (by simp [ho]) (by rintro w rfl; cases ho)]
    exact branchIf_mem ..
  | jmpAbs | jmpInd => rfl
  | jsr w => exact (applyAccesses_push s [_, _]).symm
  | rts | rti => exact (applyAccesses_pull s.mem s _).symm
  | brk => exact absurd rfl hb

theorem exec_mem {i : Instr} {s t : State} (h : exec i s = .next t) : t.mem = applyAccesses s.mem (busTrace i s) := by
  obtain ⟨f, hf, rfl⟩ := exec_cases h
  by_cases hb : i = .brk
  · subst hb
    rw [← Host.Outcome.next.inj h, applyAccesses_busTrace]
    exact (applyAccesses_entry s Config.vecIrq (s.pc + 2#16) true 7).symm
  · exact hf.mem_eq hb s

/-- Settles O27: memory by the form of the instruction, the first transactions by the fetch. -/
theorem memoryChangesByTheTransactions : Obligations.MemoryChangesByTheTransactions := fun i s t h =>
  ⟨exec_mem h, by rw [take_busTrace, encode_length, Nat.add_comm, fetchAccesses]⟩

/-! ## The transactions of a step as a change of memory (R215, R220) -/

theorem stepTrace_nmi {s : State} (h : s.nmiPending = true) :
    stepTrace s = entryAccesses s Config.vecNmi s.pc false := by simp [stepTrace, h]

theorem stepTrace_irq {s : State} (hn : s.nmiPending = false) (hl : s.irqLine = true) (hi : s.p.i = false) :
    stepTrace s = entryAccesses s Config.vecIrq s.pc false := by simp [stepTrace, hn, hl, hi]

/-- A step that goes on changes memory by exactly the writes among its transactions. -/
theorem step_mem {s t : State} (h : step s = .next t) : t.mem = applyAccesses s.mem (stepTrace s) := by
  rcases step_cases h with ⟨hn, rfl⟩ | ⟨hn, hl, hi, rfl⟩ | ⟨hq, hexec⟩
  · rw [stepTrace_nmi hn]
    exact (applyAccesses_entry { s with nmiPending := false } ..).symm
  · rw [stepTrace_irq hn hl hi]
    exact (applyAccesses_entry s ..).symm
  · rw [stepTrace_quiet hq, exec_mem hexec]

/-- Settles O28: what no write names, the transactions of the step leave as it was. -/
theorem unwrittenBytesAreKept : Obligations.UnwrittenBytesAreKept := by
  intro s t a h hw
  rw [State.readMem, step_mem h, read_applyAccesses hw, State.readMem]

end Sys2Proof.Machine

/-! SUPPORT. The encoding (30_encoding.md): decoder and encoder both follow the opcode map, cell by cell. -/

namespace Sys2Proof

open Sys2Proof.Machine

/-! ## The bytes of a cell of the map (R80, R81) -/

/-- The bytes of the instruction `Entry.instr` gives: the opcode, and the operand bytes that the entry consumes. -/
def Entry.bytes (op b1 b2 : Byte) : Entry → List Byte
  | .undefined => [op]
  | .implied _ _ => [op]
  | .byte _ _ _ => enc2 op b1
  | .word _ _ _ => enc3 op (mkWord b2 b1)

/-- R83: the decoder reads a cell's bytes as its instruction and leaves what follows them. -/
theorem decode_entryBytes (op b1 b2 : Byte) (rest : List Byte) :
    decode ((opcodeEntry op).bytes op b1 b2 ++ rest) = .ok ((opcodeEntry op).instr op b1 b2, rest) := by
  cases h : opcodeEntry op with
  | undefined => exact decode_undefined rest h
  | implied i c => exact decode_implied rest h
  | byte k c p => exact decode_byte b1 rest h
  | word k c p => simpa [Entry.bytes, Entry.instr, enc3] using decode_word b1 b2 rest h

/-- R83: what the decoder reads is always a cell's instruction, from that cell's bytes. -/
theorem decode_eq_ok {bytes rest : List Byte} {i : Instr} (h : decode bytes = .ok (i, rest)) :
    ∃ op b1 b2, i = (opcodeEntry op).instr op b1 b2 ∧ bytes = (opcodeEntry op).bytes op b1 b2 ++ rest := by
  obtain ⟨op, tail, rfl, ⟨he, rfl, rfl⟩ | ⟨c, he, rfl⟩ | ⟨k, c, p, b1, he, rfl, rfl⟩ |
    ⟨k, c, p, b1, b2, he, rfl, rfl⟩⟩ := decode_cases h
  · exact ⟨op, 0#8, 0#8, by simp [he, Entry.instr, Entry.bytes]⟩
  · exact ⟨op, 0#8, 0#8, by simp [he, Entry.instr, Entry.bytes]⟩
  · exact ⟨op, b1, 0#8, by simp [he, Entry.instr, Entry.bytes, enc2]⟩
  · exact ⟨op, b1, b2, by simp [he, Entry.instr, Entry.bytes, enc3]⟩

/-! ## The encoder along the map (R83, R84, R85) -/

/-- Row by row of the map: the encoder gives each cell's instruction that cell's bytes, and each such instruction is
well formed. The row is evaluated with its operand bytes as variables. -/
theorem mapRow_encode (hi : Fin 16) (b1 b2 : Byte) :
    (List.range 16).map (fun lo =>
        let op := BitVec.ofNat 8 (16 * hi + lo)
        let i := (opcodeEntry op).instr op b1 b2
        (encode i, i.wellFormed)) =
      (List.range 16).map (fun lo =>
        let op := BitVec.ofNat 8 (16 * hi + lo)
        ((opcodeEntry op).bytes op b1 b2, true)) := by
  fin_cases hi <;> rfl

/-- R83, R85: the same of the cell of any opcode byte. -/
theorem encode_entryInstr (op b1 b2 : Byte) :
    encode ((opcodeEntry op).instr op b1 b2) = (opcodeEntry op).bytes op b1 b2 ∧
      ((opcodeEntry op).instr op b1 b2).wellFormed = true := by
  have hop := op.isLt
  have hcell := List.map_inj_left.1 (mapRow_encode ⟨op.toNat / 16, by omega⟩ b1 b2) (op.toNat % 16)
    (List.mem_range.2 (Nat.mod_lt _ (by decide)))
  simpa only [Nat.div_add_mod, BitVec.ofNat_toNat, BitVec.setWidth_eq, Prod.mk.injEq] using hcell

/-- Settles O7: what the decoder reads is a cell's instruction from that cell's bytes, and the encoder agrees. -/
theorem encodeOfDecode : Obligations.EncodeOfDecode := by
  intro bytes rest i h
  obtain ⟨op, b1, b2, rfl, rfl⟩ := decode_eq_ok h
  obtain ⟨henc, hwf⟩ := encode_entryInstr op b1 b2
  exact ⟨hwf, by rw [henc]⟩

/-! ## Every well-formed instruction is in the map (R83, R84) -/

/-- R85: the cells of the listed opcode values are marked undefined. -/
theorem opcodeEntry_of_listed {op : Byte} (h : (Instr.undefined op).wellFormed = true) :
    opcodeEntry op = .undefined := by
  have hcells : undefinedOpcodes.map (fun n => opcodeEntry (.ofNat 8 n)) =
      undefinedOpcodes.map (fun _ => .undefined) := rfl
  have hcell := List.map_inj_left.1 hcells op.toNat (List.contains_iff_mem.1 h)
  rwa [BitVec.ofNat_toNat, BitVec.setWidth_eq] at hcell

/-- An instruction is that of its own opcode's cell, at its own operand bytes. -/
theorem instrEntry_instr {i : Instr} (h : i.wellFormed = true) :
    ∃ b1 b2, (instrEntry i).instr ((encode i).headD 0x00#8) b1 b2 = i := by
  cases i with
  | ldaImm b | ldaZp b | ldaZpx b | ldaIndx b | ldaIndy b | ldxImm b | ldxZp b | ldxZpy b | ldyImm b | ldyZp b
  | ldyZpx b | staZp b | staZpx b | staIndx b | staIndy b | stxZp b | stxZpy b | styZp b | styZpx b | andImm b
  | andZp b | andZpx b | andIndx b | andIndy b | oraImm b | oraZp b | oraZpx b | oraIndx b | oraIndy b | eorImm b
  | eorZp b | eorZpx b | eorIndx b | eorIndy b | bitZp b | adcImm b | adcZp b | adcZpx b | adcIndx b | adcIndy b
  | sbcImm b | sbcZp b | sbcZpx b | sbcIndx b | sbcIndy b | cmpImm b | cmpZp b | cmpZpx b | cmpIndx b | cmpIndy b
  | cpxImm b | cpxZp b | cpyImm b | cpyZp b | incZp b | incZpx b | decZp b | decZpx b | aslZp b | aslZpx b | lsrZp b
  | lsrZpx b | rolZp b | rolZpx b | rorZp b | rorZpx b | bcc b | bcs b | beq b | bne b | bmi b | bpl b | bvc b
  | bvs b =>
    exact ⟨b, 0#8, by simp [Entry.instr]⟩
  | ldaAbs w | ldaAbsx w | ldaAbsy w | ldxAbs w | ldxAbsy w | ldyAbs w | ldyAbsx w | staAbs w | staAbsx w | staAbsy w
  | stxAbs w | styAbs w | andAbs w | andAbsx w | andAbsy w | oraAbs w | oraAbsx w | oraAbsy w | eorAbs w | eorAbsx w
  | eorAbsy w | bitAbs w | adcAbs w | adcAbsx w | adcAbsy w | sbcAbs w | sbcAbsx w | sbcAbsy w | cmpAbs w | cmpAbsx w
  | cmpAbsy w | cpxAbs w | cpyAbs w | incAbs w | incAbsx w | decAbs w | decAbsx w | aslAbs w | aslAbsx w | lsrAbs w
  | lsrAbsx w | rolAbs w | rolAbsx w | rorAbs w | rorAbsx w | jmpAbs w | jmpInd w | jsr w =>
    exact ⟨loByte w, hiByte w, by simp [Entry.instr]⟩
  | undefined op => exact ⟨0#8, 0#8, congrArg (Entry.instr op 0#8 0#8) (opcodeEntry_of_listed h)⟩
  | _ => exact ⟨0#8, 0#8, by simp [Entry.instr]⟩

/-- Settles O6: the instruction is that of its opcode's cell, where the decoder and the encoder agree. -/
theorem decodeOfEncode : Obligations.DecodeOfEncode := by
  intro i rest h
  obtain ⟨b1, b2, hi⟩ := instrEntry_instr h
  rw [instrEntry] at hi
  have hdec := decode_entryBytes ((encode i).headD 0x00#8) b1 b2 rest
  rwa [← (encode_entryInstr _ b1 b2).1, hi] at hdec

/-! ## The undefined opcodes (R85, R200) and the words of R88 -/

/-- Settles O9: a byte decodes as undefined when the instruction is well formed, by O6, and only then, by O7; one that
is executed faults after its fetch. -/
theorem undefinedOpcodesAreListed : Obligations.UndefinedOpcodesAreListed := by
  refine ⟨rfl, by decide, fun op rest => ⟨fun h => ?_, fun h => ?_⟩, fun op s => ⟨rfl, rfl⟩⟩
  · exact List.contains_iff_mem.1 (encodeOfDecode _ _ _ h).1
  · exact decodeOfEncode (.undefined op) rest (List.contains_iff_mem.2 h)

/-- Settles O8: each word by the cell of its first byte. -/
theorem sampleWordsDecode : Obligations.SampleWordsDecode :=
  ⟨rfl, rfl, rfl, rfl, rfl, rfl, rfl, rfl, rfl, rfl, rfl⟩

end Sys2Proof

/-! SUPPORT. Addressing modes (40_addressing_modes.md): the resolver's record by mode, and the cycles of an instruction
as its cell of the opcode map and its mode give them. -/

namespace Sys2Proof.Machine

/-! ## The resolver (R100 to R113) -/

/-- R100: the record of a mode with a data address, by whether it crosses a page. -/
theorem resolve_memory {m : MemMode} {s : State} {c : Bool} (h : m.crosses s = c) :
    resolve (.memory m) s = ⟨some (m.ea s), m.bytesConsumed, c⟩ := by
  rw [← h]; rfl

/-- R112: the index crosses a page when it carries out of the pointer's low byte. -/
theorem MemMode.crosses_indy_eq_decide (z : Byte) (s : State) :
    (MemMode.indy z).crosses s = decide (256 ≤ (s.readMem (zext16 z)).toNat + s.y.toNat) := by
  rw [MemMode.crosses_indy, crossed_add_index, State.read16Zp, loByte_mkWord]

/-- Settles O30: an address is in another page than its base only by an index that carries out of the low byte, or by
a branch; the rest are the definitions. -/
theorem modesResolve : Obligations.ModesResolve := by
  intro s b w
  refine ⟨rfl, rfl, rfl, ?zp, ?zpx, ?zpy, ?abs, ?absx, ?absy, ?indx, ?indy, rfl, rfl⟩
  case zp => exact resolve_memory (MemMode.crosses_zp b s)
  case zpx => exact resolve_memory (MemMode.crosses_zpx b s)
  case zpy => exact resolve_memory (MemMode.crosses_zpy b s)
  case abs => exact resolve_memory (MemMode.crosses_abs w s)
  case absx => exact resolve_memory (crossed_add_index w s.x)
  case absy => exact resolve_memory (crossed_add_index w s.y)
  case indx => exact resolve_memory (MemMode.crosses_indx b s)
  case indy => exact resolve_memory (MemMode.crosses_indy_eq_decide b s)

/-! ## The cycles of each access class (R115, R116, R174) -/

@[simp] theorem storeClass_cyc (v : Byte) (m : MemMode) (base : Nat) (s : State) :
    (storeClass v m base s).cyc = s.cyc + base := rfl

@[simp] theorem rmwMemory_cyc (f : RmwOp) (m : MemMode) (base : Nat) (s : State) :
    (rmwMemory f m base s).cyc = s.cyc + base := rfl

@[simp] theorem rmwAccumulator_cyc (f : RmwOp) (base : Nat) (s : State) :
    (rmwAccumulator f base s).cyc = s.cyc + base := rfl

/-- A read-class instruction adds its base count and the penalty of its mode. -/
theorem readClass_cyc {f : Byte → State → State} (hf : ∀ v s, (f v s).cyc = s.cyc) {src : Source} {base : Nat}
    {s : State} {cost : Nat} (hc : base + src.penalty s = cost) : (readClass f src base s).cyc = s.cyc + cost := by
  rw [readClass, State.advance_cyc, hf, hc]

/-- R174: a branch costs 2 cycles, one more when it is taken, and another when its target is in another page. -/
theorem cycleCost_branch {i : Instr} {d : Byte} (he : ∃ k, instrEntry i = .byte k 2 .branch)
    (ho : instrOperand i = .relative d) (s : State) :
    cycleCost i s = 2 + if branchTaken i s then 1 + (crossed s.branchNext (s.branchTarget d)).toNat else 0 := by
  obtain ⟨k, he⟩ := he
  rw [cycleCost, he, ho]; rfl

/-- Settles O16: the sign of a cell in the opcode map is the penalty of the meaning; a read-class cell without `+` is in
a mode that cannot cross a page. -/
theorem cyclesAreBasePlusPenalty : Obligations.CyclesAreBasePlusPenalty := by
  intro i s t h
  cases i with
  | undefined op => cases h
  | ldaImm _ | ldxImm _ | ldyImm _ | andImm _ | oraImm _ | eorImm _ | adcImm _ | sbcImm _ | cmpImm _ | cpxImm _
  | cpyImm _ | ldaZp _ | ldaZpx _ | ldaAbs _ | ldaAbsx _ | ldaAbsy _ | ldaIndx _ | ldaIndy _ | ldxZp _ | ldxZpy _
  | ldxAbs _ | ldxAbsy _ | ldyZp _ | ldyZpx _ | ldyAbs _ | ldyAbsx _ | andZp _ | andZpx _ | andAbs _ | andAbsx _
  | andAbsy _ | andIndx _ | andIndy _ | oraZp _ | oraZpx _ | oraAbs _ | oraAbsx _ | oraAbsy _ | oraIndx _ | oraIndy _
  | eorZp _ | eorZpx _ | eorAbs _ | eorAbsx _ | eorAbsy _ | eorIndx _ | eorIndy _ | bitZp _ | bitAbs _ | adcZp _
  | adcZpx _ | adcAbs _ | adcAbsx _ | adcAbsy _ | adcIndx _ | adcIndy _ | sbcZp _ | sbcZpx _ | sbcAbs _ | sbcAbsx _
  | sbcAbsy _ | sbcIndx _ | sbcIndy _ | cmpZp _ | cmpZpx _ | cmpAbs _ | cmpAbsx _ | cmpAbsy _ | cmpIndx _ | cmpIndy _
  | cpxZp _ | cpxAbs _ | cpyZp _ | cpyAbs _ =>
    cases h
    apply readClass_cyc
    · exact fun _ _ => rfl
    · simp [cycleCost, Entry.baseCycles, Entry.penalty, instrOperand, Operand.pageCrossed, Source.penalty]
  | bcc d | bcs d | beq d | bne d | bmi d | bpl d | bvc d | bvs d =>
    cases h
    rw [branchIf_cyc, cycleCost_branch (d := d)]
    · rfl
    · simp
    · rfl
  -- The other classes and the jumps, calls and returns: no sign in the map, no penalty in the meaning.
  | _ =>
    cases h
    simp [cycleCost, Entry.baseCycles, Entry.penalty]

end Sys2Proof.Machine

/-! SUPPORT. Loads and stores (41_load_store.md): the rows of the read-class and of the writing forms as the model's
modes give them, and each list of forms by its rows. -/

namespace Sys2Proof.Machine

open Sys2Proof.Claims

/-! ## The rows of a mode (R103 to R115) -/

/-- The operand bytes of a memory mode, low byte first (R81). -/
def MemMode.bytes : MemMode → List Byte
  | .zp z | .zpx z | .zpy z | .indx z | .indy z => [z]
  | .abs w | .absx w | .absy w => [loByte w, hiByte w]

/-- The addresses of the pointer bytes of a memory mode (R111, R112). -/
def MemMode.pointers : MemMode → State → List Word
  | .indx z, s => [zext16 (z + s.x), zext16 (z + s.x + 1#8)]
  | .indy z, _ => [zext16 z, zext16 (z + 1#8)]
  | _, _ => []

/-- The operand bytes of a source. -/
def Source.bytes : Source → List Byte
  | .imm b => [b]
  | .mem m => m.bytes

/-- The addresses read for a source: those of the pointer, then the operand's own. -/
def Source.reads : Source → State → List Word
  | .imm _, _ => []
  | .mem m, s => m.pointers s ++ [m.ea s]

/-- The row of a read-class form, as the model's source and base count give it. -/
def Source.readRow (src : Source) (base : Nat) (s : State) : ReadRow :=
  ⟨src.bytes, src.value s, src.reads s, src.length, base + src.penalty s⟩

/-- The row of a form that writes memory, as the model's mode gives it. -/
def MemMode.writeRow (m : MemMode) (cycles : Nat) (s : State) : WriteRow :=
  ⟨m.bytes, m.pointers s, m.ea s, m.length, cycles⟩

/-- A mode that cannot cross a page costs its base count. -/
theorem Source.readRow_of_not_crosses {m : MemMode} {s : State} (h : m.crosses s = false) (base : Nat) :
    (Source.mem m).readRow base s =
      ⟨m.bytes, s.readMem (m.ea s), m.pointers s ++ [m.ea s], m.length, base⟩ := by
  rw [Source.readRow, Source.penalty, h]; rfl

/-- R115: a mode that can cross a page costs one more cycle when it does. -/
theorem Source.readRow_of_crosses {m : MemMode} {s : State} {a b : Word} (h : m.crosses s = crossed a b) (base : Nat) :
    (Source.mem m).readRow base s =
      ⟨m.bytes, s.readMem (m.ea s), m.pointers s ++ [m.ea s], m.length, base + pageCost a b⟩ := by
  rw [Source.readRow, Source.penalty, h, crossed_toNat]; rfl

theorem readRow_imm (s : State) (b : Byte) : (Source.imm b).readRow 2 s = readImm b := rfl

theorem readRow_zp (s : State) (z : Byte) : (Source.mem (.zp z)).readRow 3 s = readZp s z :=
  Source.readRow_of_not_crosses (MemMode.crosses_zp z s) 3

theorem readRow_zpx (s : State) (z : Byte) : (Source.mem (.zpx z)).readRow 4 s = readZpx s z :=
  Source.readRow_of_not_crosses (MemMode.crosses_zpx z s) 4

theorem readRow_zpy (s : State) (z : Byte) : (Source.mem (.zpy z)).readRow 4 s = readZpy s z :=
  Source.readRow_of_not_crosses (MemMode.crosses_zpy z s) 4

theorem readRow_abs (s : State) (w : Word) : (Source.mem (.abs w)).readRow 4 s = readAbs s w :=
  Source.readRow_of_not_crosses (MemMode.crosses_abs w s) 4

theorem readRow_absx (s : State) (w : Word) : (Source.mem (.absx w)).readRow 4 s = readAbsx s w :=
  Source.readRow_of_crosses (MemMode.crosses_absx w s) 4

theorem readRow_absy (s : State) (w : Word) : (Source.mem (.absy w)).readRow 4 s = readAbsy s w :=
  Source.readRow_of_crosses (MemMode.crosses_absy w s) 4

theorem readRow_indx (s : State) (z : Byte) : (Source.mem (.indx z)).readRow 6 s = readIndx s z :=
  Source.readRow_of_not_crosses (MemMode.crosses_indx z s) 6

theorem readRow_indy (s : State) (z : Byte) : (Source.mem (.indy z)).readRow 5 s = readIndy s z :=
  Source.readRow_of_crosses (MemMode.crosses_indy z s) 5

/-! ## The transactions as the statements write them (R62) -/

theorem fetchReads_eq_map (s : State) (n : Nat) :
    fetchReads s n = (List.range n).map fun k => .read (s.pc + BitVec.ofNat 16 k) := by
  induction n with
  | zero => rfl
  | succ n ih => rw [fetchReads, ih, List.range_succ, List.map_append]; rfl

theorem fetchAccesses_eq_fetchReads (s : State) (n : Nat) : fetchAccesses s n = fetchReads s (1 + n) := by
  rw [fetchReads_eq_map, fetchAccesses, Nat.add_comm]

theorem pointerAccesses_memory (m : MemMode) (s : State) :
    pointerAccesses (.memory m) s = (m.pointers s).map .read := by cases m <;> rfl

theorem operandAccesses_read {i : Instr} {m : MemMode} (hc : accessClass i = .read)
    (ho : instrOperand i = .memory m) (s : State) : operandAccesses i s = [.read (m.ea s)] := by
  simp [operandAccesses, hc, ho]

/-- R62: the fetch, the pointer, the accesses of the class. JSR alone has both such a mode and stack accesses; it is a
jump. -/
theorem busTrace_memory {i : Instr} {m : MemMode} (hc : accessClass i ≠ .jumpTarget)
    (ho : instrOperand i = .memory m) (s : State) :
    busTrace i s = fetchReads s m.length ++ (m.pointers s).map .read ++ operandAccesses i s := by
  have hstack : stackAccesses i s = [] :=
    stackAccesses_eq_nil (by simp [ho]) (by rintro w rfl; exact hc rfl) s
  rw [busTrace, hstack, List.append_nil, ho, fetchAccesses_eq_fetchReads, pointerAccesses_memory]; rfl

/-- A read-class instruction reads its bytes, the pointer and the operand. -/
theorem busTrace_read {i : Instr} {src : Source} (hc : accessClass i = .read) (ho : instrOperand i = src.operand)
    (s : State) : busTrace i s = fetchReads s src.length ++ (src.reads s).map .read := by
  cases src with
  | imm b =>
    have hstack : stackAccesses i s = [] :=
      stackAccesses_eq_nil (by simp [ho, Source.operand]) (by rintro w rfl; cases hc) s
    have hoperand : operandAccesses i s = [] := operandAccesses_eq_nil (by simp [ho, Source.operand]) s
    rw [busTrace, hstack, hoperand, ho, fetchAccesses_eq_fetchReads]
    simp [Source.operand, Operand.bytesConsumed, pointerAccesses, Source.length, Source.reads]
  | mem m =>
    rw [busTrace_memory (by simp [hc]) ho, operandAccesses_read hc ho]
    simp [Source.length, Source.reads]

/-! ## The read-class forms (R114) -/

/-- R26: the model's Z and N are those of the statements. -/
theorem setZN_eq_withZN (v : Byte) (p : Status) : setZN v p = withZN p v := rfl

theorem readEffect_cyc (m : Mnemonic) (v : Byte) (s : State) : (readEffect m v s).cyc = s.cyc := by cases m <;> rfl

/-- `i` is the read-class instruction of its mnemonic, with the opcode `op`, the source `src` and `base` cycles. -/
structure ReadForm (i : Instr) (op : Byte) (src : Source) (base : Nat) : Prop where
  accessClass_eq : accessClass i = .read
  operand_eq : instrOperand i = src.operand
  encode_eq : encode i = op :: src.bytes
  exec_eq : ∀ s, exec i s = .next (readClass (readEffect (mnemonicOf i)) src base s)

/-- A read-class form completes with the effect of its operand value, PC past it and its row's cycles. -/
theorem ReadForm.exec_row {i : Instr} {op : Byte} {src : Source} {base : Nat} (h : ReadForm i op src base)
    (s : State) :
    exec i s = .next { readEffect (mnemonicOf i) (src.value s) s with
      pc := s.pc + BitVec.ofNat 16 src.length, cyc := s.cyc + (base + src.penalty s) } := by
  rw [h.exec_eq, readClass_eq, readEffect_pc, readEffect_cyc]

/-! ## The store forms (R114) -/

/-- `i` is the store of its mnemonic, with the opcode `op`, the mode `m` and its cycles. -/
structure StoreForm (i : Instr) (op : Byte) (m : MemMode) (cycles : Nat) : Prop where
  accessClass_eq : accessClass i = .store
  operand_eq : instrOperand i = .memory m
  encode_eq : encode i = op :: m.bytes
  exec_eq : ∀ s, exec i s = .next (storeClass (storedByte i s) m cycles s)

/-- An instruction that writes one byte and the status before its end: the byte reads back, every other byte and all
other state stay. -/
theorem exec_write_effect {i : Instr} {s : State} {a : Word} {v : Byte} {p : Status} {len cycles : Nat}
    (h : exec i s = .next (State.advance { s.writeMem a v with p := p } len cycles)) :
    ∃ t, exec i s = .next t ∧
      t = { s with mem := t.mem, p := p, pc := s.pc + BitVec.ofNat 16 len, cyc := s.cyc + cycles } ∧
      t.readMem a = v ∧ ∀ b, b ≠ a → t.readMem b = s.readMem b :=
  ⟨_, h, rfl, s.readMem_writeMem_same a v, fun _ => s.readMem_writeMem_other v⟩

end Sys2Proof.Machine

namespace Sys2Proof.Claims

open Sys2Proof.Machine

/-! ## Lists of forms, form by form -/

theorem ReadForms.nil (s : State) (effect : Byte → State) : ReadForms [] s effect := List.forall_mem_nil _

/-- A read-class form belongs to a list when its row is that of its source and its mnemonic has the list's effect. -/
theorem ReadForms.cons {i : Instr} {op : Byte} {src : Source} {base : Nat} {row : ReadRow} {s : State}
    {effect : Byte → State} {forms : List (Instr × Byte × ReadRow)} (hrow : src.readRow base s = row)
    (h : ReadForm i op src base) (heffect : ∀ v, readEffect (mnemonicOf i) v s = effect v)
    (hforms : ReadForms forms s effect) : ReadForms ((i, op, row) :: forms) s effect := by
  subst hrow
  refine List.forall_mem_cons.2 ⟨⟨h.encode_eq, ?_, busTrace_read h.accessClass_eq h.operand_eq s⟩, hforms⟩
  rw [h.exec_row, heffect]; rfl

theorem WriteForms.nil (s : State) (reading : Bool) (out : Byte → Byte) (status : Byte → Status) :
    WriteForms [] s reading out status := List.forall_mem_nil _

/-- A store belongs to a list when its row is that of its mode and it stores the list's byte. -/
theorem WriteForms.cons_store {i : Instr} {op : Byte} {m : MemMode} {cycles : Nat} {row : WriteRow} {s : State}
    {v : Byte} {forms : List (Instr × Byte × WriteRow)} (hrow : m.writeRow cycles s = row)
    (h : StoreForm i op m cycles) (hv : storedByte i s = v)
    (hforms : WriteForms forms s false (fun _ => v) (fun _ => s.p)) :
    WriteForms ((i, op, row) :: forms) s false (fun _ => v) (fun _ => s.p) := by
  subst hrow hv
  have hbus : busTrace i s =
      fetchReads s m.length ++ (m.pointers s).map .read ++ [.write (m.ea s) (storedByte i s)] := by
    rw [busTrace_memory (by simp [h.accessClass_eq]) h.operand_eq,
      operandAccesses_store h.accessClass_eq h.operand_eq]
  refine List.forall_mem_cons.2 ⟨⟨h.encode_eq, exec_write_effect (h.exec_eq s), ?_⟩, hforms⟩
  rw [hbus]; simp [MemMode.writeRow]

end Sys2Proof.Claims

namespace Sys2Proof.Machine

open Sys2Proof.Claims

/-! ## The loads and the stores (R120 to R125) -/

/-- Settles O31: the effect of each mnemonic, and for each form its source and base count. -/
theorem loadsComplete : Obligations.LoadsComplete := by
  intro s b z w
  refine ⟨?lda, ?ldx, ?ldy⟩
  case lda =>
    have heffect : ∀ v, readEffect .LDA v s = { s with a := v, p := withZN s.p v } := fun v => by
      rw [← setZN_eq_withZN]; rfl
    exact .cons (readRow_imm s b) ⟨rfl, rfl, rfl, fun _ => rfl⟩ heffect <|
      .cons (readRow_zp s z) ⟨rfl, rfl, rfl, fun _ => rfl⟩ heffect <|
      .cons (readRow_zpx s z) ⟨rfl, rfl, rfl, fun _ => rfl⟩ heffect <|
      .cons (readRow_abs s w) ⟨rfl, rfl, rfl, fun _ => rfl⟩ heffect <|
      .cons (readRow_absx s w) ⟨rfl, rfl, rfl, fun _ => rfl⟩ heffect <|
      .cons (readRow_absy s w) ⟨rfl, rfl, rfl, fun _ => rfl⟩ heffect <|
      .cons (readRow_indx s z) ⟨rfl, rfl, rfl, fun _ => rfl⟩ heffect <|
      .cons (readRow_indy s z) ⟨rfl, rfl, rfl, fun _ => rfl⟩ heffect <| .nil s _
  case ldx =>
    have heffect : ∀ v, readEffect .LDX v s = { s with x := v, p := withZN s.p v } := fun v => by
      rw [← setZN_eq_withZN]; rfl
    exact .cons (readRow_imm s b) ⟨rfl, rfl, rfl, fun _ => rfl⟩ heffect <|
      .cons (readRow_zp s z) ⟨rfl, rfl, rfl, fun _ => rfl⟩ heffect <|
      .cons (readRow_zpy s z) ⟨rfl, rfl, rfl, fun _ => rfl⟩ heffect <|
      .cons (readRow_abs s w) ⟨rfl, rfl, rfl, fun _ => rfl⟩ heffect <|
      .cons (readRow_absy s w) ⟨rfl, rfl, rfl, fun _ => rfl⟩ heffect <| .nil s _
  case ldy =>
    have heffect : ∀ v, readEffect .LDY v s = { s with y := v, p := withZN s.p v } := fun v => by
      rw [← setZN_eq_withZN]; rfl
    exact .cons (readRow_imm s b) ⟨rfl, rfl, rfl, fun _ => rfl⟩ heffect <|
      .cons (readRow_zp s z) ⟨rfl, rfl, rfl, fun _ => rfl⟩ heffect <|
      .cons (readRow_zpx s z) ⟨rfl, rfl, rfl, fun _ => rfl⟩ heffect <|
      .cons (readRow_abs s w) ⟨rfl, rfl, rfl, fun _ => rfl⟩ heffect <|
      .cons (readRow_absx s w) ⟨rfl, rfl, rfl, fun _ => rfl⟩ heffect <| .nil s _

/-- Settles O32: for each form its mode, its cycles and the register it stores. -/
theorem storesComplete : Obligations.StoresComplete := by
  intro s z w
  refine ⟨?sta, ?stx, ?sty⟩
  case sta =>
    exact .cons_store (m := .zp z) rfl ⟨rfl, rfl, rfl, fun _ => rfl⟩ rfl <|
      .cons_store (m := .zpx z) rfl ⟨rfl, rfl, rfl, fun _ => rfl⟩ rfl <|
      .cons_store (m := .abs w) rfl ⟨rfl, rfl, rfl, fun _ => rfl⟩ rfl <|
      .cons_store (m := .absx w) rfl ⟨rfl, rfl, rfl, fun _ => rfl⟩ rfl <|
      .cons_store (m := .absy w) rfl ⟨rfl, rfl, rfl, fun _ => rfl⟩ rfl <|
      .cons_store (m := .indx z) rfl ⟨rfl, rfl, rfl, fun _ => rfl⟩ rfl <|
      .cons_store (m := .indy z) rfl ⟨rfl, rfl, rfl, fun _ => rfl⟩ rfl <| .nil s _ _ _
  case stx =>
    exact .cons_store (m := .zp z) rfl ⟨rfl, rfl, rfl, fun _ => rfl⟩ rfl <|
      .cons_store (m := .zpy z) rfl ⟨rfl, rfl, rfl, fun _ => rfl⟩ rfl <|
      .cons_store (m := .abs w) rfl ⟨rfl, rfl, rfl, fun _ => rfl⟩ rfl <| .nil s _ _ _
  case sty =>
    exact .cons_store (m := .zp z) rfl ⟨rfl, rfl, rfl, fun _ => rfl⟩ rfl <|
      .cons_store (m := .zpx z) rfl ⟨rfl, rfl, rfl, fun _ => rfl⟩ rfl <|
      .cons_store (m := .abs w) rfl ⟨rfl, rfl, rfl, fun _ => rfl⟩ rfl <| .nil s _ _ _

end Sys2Proof.Machine

/-! SUPPORT. Transfers and stack (42_transfer_stack.md): what an implied instruction that goes on to the next one does,
once for all of them, and the transfers, pushes and pulls by their effects. -/

namespace Sys2Proof.Machine

open Sys2Proof.Claims

/-! ## The implied forms (R101) -/

theorem impliedEffect_cyc (m : Mnemonic) (s : State) : (impliedEffect m s).cyc = s.cyc := by cases m <;> rfl

/-- R62: the fetch of the opcode, then the stack. -/
theorem busTrace_implied {i : Instr} (ho : instrOperand i = .implied) (s : State) :
    busTrace i s = fetchReads s 1 ++ stackAccesses i s := by
  have hoperand : operandAccesses i s = [] := operandAccesses_eq_nil (by simp [ho]) s
  rw [busTrace, hoperand, ho, fetchAccesses_eq_fetchReads]
  simp [Operand.bytesConsumed, pointerAccesses]

/-- `i` is the implied instruction of its mnemonic that goes on to the next one, with the opcode `op` and its cycles. -/
structure ImpliedForm (i : Instr) (op : Byte) (cycles : Nat) : Prop where
  operand_eq : instrOperand i = .implied
  encode_eq : encode i = [op]
  exec_eq : ∀ s, exec i s = .next ((impliedEffect (mnemonicOf i) s).advance 1 cycles)

section
variable {i : Instr} {op : Byte} {cycles : Nat} {s : State}

/-- An implied form completes with the effect of its mnemonic, PC past it and its cycles. -/
theorem ImpliedForm.exec_effect (h : ImpliedForm i op cycles) (s : State) :
    exec i s = .next { impliedEffect (mnemonicOf i) s with pc := s.pc + 1#16, cyc := s.cyc + cycles } := by
  rw [h.exec_eq, State.advance, impliedEffect_pc, impliedEffect_cyc]

/-- An implied form by the effect of its mnemonic and its accesses of the stack. -/
theorem ImpliedForm.oneByte {effect : State} {accesses : List Access} (h : ImpliedForm i op cycles)
    (heffect : impliedEffect (mnemonicOf i) s = effect) (haccesses : stackAccesses i s = accesses) :
    OneByte i op cycles s effect accesses := by
  subst heffect haccesses
  exact ⟨h.encode_eq, h.exec_effect s, busTrace_implied h.operand_eq s⟩

/-- An implied form that pushes one byte: the byte reads back at the old stack address, every other byte and all other
state but SP stay. -/
theorem ImpliedForm.onePush {v : Byte} (h : ImpliedForm i op cycles)
    (heffect : impliedEffect (mnemonicOf i) s = s.push v) (haccesses : stackAccesses i s = pushAccesses s [v]) :
    encode i = [op] ∧ busTrace i s = fetchReads s 1 ++ [.write (stackSlot s 0) v] ∧
      ∃ t, exec i s = .next t ∧
        t = { s with mem := t.mem, sp := s.sp - 1#8, pc := s.pc + 1#16, cyc := s.cyc + cycles } ∧
        t.readMem (stackSlot s 0) = v ∧ ∀ a, a ≠ stackSlot s 0 → t.readMem a = s.readMem a := by
  rw [stackSlot_zero]
  refine ⟨h.encode_eq, ?_, _, h.exec_effect s, ?_⟩
  · rw [busTrace_implied h.operand_eq, haccesses]; rfl
  · rw [heffect]
    exact ⟨rfl, s.readMem_writeMem_same s.stackAddr v, fun _ => s.readMem_writeMem_other v⟩

end

/-! ## Register results as the statements write them (R26) -/

theorem State.loadA_eq_withZN (s : State) (v : Byte) : s.loadA v = { s with a := v, p := withZN s.p v } := by
  rw [← setZN_eq_withZN]; rfl

theorem State.loadX_eq_withZN (s : State) (v : Byte) : s.loadX v = { s with x := v, p := withZN s.p v } := by
  rw [← setZN_eq_withZN]; rfl

theorem State.loadY_eq_withZN (s : State) (v : Byte) : s.loadY v = { s with y := v, p := withZN s.p v } := by
  rw [← setZN_eq_withZN]; rfl

/-! ## The transfers, pushes and pulls (R130 to R139) -/

/-- Settles O33: TXS by its definition, the other five as loads of a register. -/
theorem transfersComplete : Obligations.TransfersComplete := by
  intro s
  refine ⟨?tax, ?tay, ?txa, ?tya, ?tsx, ?txs⟩
  case tax => exact ImpliedForm.oneByte ⟨rfl, rfl, fun _ => rfl⟩ (s.loadX_eq_withZN s.a) rfl
  case tay => exact ImpliedForm.oneByte ⟨rfl, rfl, fun _ => rfl⟩ (s.loadY_eq_withZN s.a) rfl
  case txa => exact ImpliedForm.oneByte ⟨rfl, rfl, fun _ => rfl⟩ (s.loadA_eq_withZN s.x) rfl
  case tya => exact ImpliedForm.oneByte ⟨rfl, rfl, fun _ => rfl⟩ (s.loadA_eq_withZN s.y) rfl
  case tsx => exact ImpliedForm.oneByte ⟨rfl, rfl, fun _ => rfl⟩ (s.loadX_eq_withZN s.sp) rfl
  case txs => exact ImpliedForm.oneByte ⟨rfl, rfl, fun _ => rfl⟩ rfl rfl

/-- Settles O34: each is one push, of A or of the status byte with bit 4 set. -/
theorem pushesComplete : Obligations.PushesComplete := by
  intro s
  refine List.forall_mem_cons.2 ⟨?pha, List.forall_mem_cons.2 ⟨?php, List.forall_mem_nil _⟩⟩
  case pha => exact ImpliedForm.onePush ⟨rfl, rfl, fun _ => rfl⟩ rfl rfl
  case php => exact ImpliedForm.onePush ⟨rfl, rfl, fun _ => rfl⟩ rfl rfl

/-- Settles O35: the byte a pull returns is the one in the slot above SP, which PLA loads into A and PLP into P. -/
theorem pullsComplete : Obligations.PullsComplete := by
  intro s
  refine ⟨?pla, ?plp⟩
  case pla =>
    refine ImpliedForm.oneByte ⟨rfl, rfl, fun _ => rfl⟩ ?_ rfl
    change s.pulled.loadA s.pullByte = _
    rw [State.loadA_eq_withZN, State.pullByte_eq]; rfl
  case plp =>
    refine ImpliedForm.oneByte ⟨rfl, rfl, fun _ => rfl⟩ ?_ rfl
    change { s.pulled with p := pLoad s.pullByte s.p } = _
    rw [State.pullByte_eq]; rfl

end Sys2Proof.Machine

/-! SUPPORT. Logic, arithmetic and compare (43_logic_arith.md): the forms of a mnemonic by the table of its modes, the
effects as the statements write them, and the sums and differences on integers and on decimal digits. -/

namespace Sys2Proof.Claims

open Sys2Proof.Machine

/-! ## Lists of forms by a table of modes (43_logic_arith.md, the eight-mode table) -/

/-- The eight-mode table: source, base count and row of each mode. -/
def eightModes (s : State) (b z : Byte) (w : Word) : List (Source × Nat × ReadRow) :=
  [(.imm b, 2, readImm b), (.mem (.zp z), 3, readZp s z), (.mem (.zpx z), 4, readZpx s z),
   (.mem (.abs w), 4, readAbs s w), (.mem (.absx w), 4, readAbsx s w), (.mem (.absy w), 4, readAbsy s w),
   (.mem (.indx z), 6, readIndx s z), (.mem (.indy z), 5, readIndy s z)]

/-- Every row of the table is the one that the model's source and base count give. -/
theorem eightModes_readRow (s : State) (b z : Byte) (w : Word) :
    ∀ e ∈ eightModes s b z w, e.1.readRow e.2.1 s = e.2.2 := by
  simp [eightModes, readRow_imm, readRow_zp, readRow_zpx, readRow_abs, readRow_absx, readRow_absy, readRow_indx,
    readRow_indy]

/-- `f` is the form of the mnemonic `m` in the mode `e` of a table. -/
structure FormOfMode (m : Mnemonic) (f : Instr × Byte × ReadRow) (e : Source × Nat × ReadRow) : Prop where
  mnemonic_eq : mnemonicOf f.1 = m
  readForm : ReadForm f.1 f.2.1 e.1 e.2.1
  row_eq : e.2.2 = f.2.2

/-- The forms of one mnemonic, mode by mode of a table, have the effect of the mnemonic. -/
theorem ReadForms.of_modes {m : Mnemonic} {s : State} {effect : Byte → State}
    {modes : List (Source × Nat × ReadRow)} {forms : List (Instr × Byte × ReadRow)}
    (hmodes : ∀ e ∈ modes, e.1.readRow e.2.1 s = e.2.2) (heffect : ∀ v, readEffect m v s = effect v)
    (hforms : List.Forall₂ (FormOfMode m) forms modes) : ReadForms forms s effect := by
  induction hforms with
  | nil => exact .nil s effect
  | cons hform _ ih =>
    obtain ⟨hrow, hrest⟩ := List.forall_mem_cons.1 hmodes
    exact .cons (hrow.trans hform.row_eq) hform.readForm (hform.mnemonic_eq ▸ heffect) (ih hrest)

end Sys2Proof.Claims

namespace Sys2Proof.Machine

open Sys2Proof.Claims

/-! ## The effects as the statements write them (R143, R144, R147, R152) -/

theorem bitTestFlags_eq (a m : Byte) (p : Status) :
    bitTestFlags a m p = { p with z := decide (a &&& m = 0#8), n := m.getLsbD 7, v := m.getLsbD 6 } := rfl

theorem compareFlags_eq (r m : Byte) (p : Status) :
    compareFlags r m p =
      { p with c := decide (m.toNat ≤ r.toNat), z := decide (r = m), n := (r - m).getLsbD 7 } := rfl

theorem State.loadAlu_eq (s : State) (u : AluResult) :
    s.loadAlu u = { s with a := u.r, p := { s.p with c := u.c, v := u.v, z := u.z, n := u.n } } := rfl

theorem adcResult_eq (a m : Byte) (p : Status) :
    adcResult a m p = if p.d = false then adcBin a m p.c else bcdAdc a m p.c := by
  split
  · next h => exact adcResult_binary h a m
  · next h => exact adcResult_decimal (by simpa using h) a m

/-! ## The forms (R140 to R144, R147, R149 to R152) -/

/-- Settles O36: each mnemonic loads A, so each list is the eight-mode table with that effect. -/
theorem logicCompletes : Obligations.LogicCompletes := by
  intro s b z w
  have hrows := eightModes_readRow s b z w
  refine ⟨.of_modes (m := .AND) hrows (fun m => s.loadA_eq_withZN (s.a &&& m)) ?_,
    .of_modes (m := .ORA) hrows (fun m => s.loadA_eq_withZN (s.a ||| m)) ?_,
    .of_modes (m := .EOR) hrows (fun m => s.loadA_eq_withZN (s.a ^^^ m)) ?_⟩
  all_goals
    repeat refine .cons ⟨rfl, ⟨rfl, rfl, rfl, fun _ => rfl⟩, rfl⟩ ?_
    exact .nil

/-- Settles O37: the status of each form is that of `bitTestFlags`. -/
theorem bitTestCompletes : Obligations.BitTestCompletes := by
  intro s z w
  have heffect := fun m => congrArg (fun p => { s with p := p }) (bitTestFlags_eq s.a m s.p)
  exact .cons (readRow_zp s z) ⟨rfl, rfl, rfl, fun _ => rfl⟩ heffect <|
    .cons (readRow_abs s w) ⟨rfl, rfl, rfl, fun _ => rfl⟩ heffect <| .nil s _

/-- Settles O38: the effect of ADC is its result by the bit D, in each of the eight modes. -/
theorem addCompletes : Obligations.AddCompletes := by
  intro s b z w
  refine .of_modes (m := .ADC) (eightModes_readRow s b z w) (fun m => ?_) ?_
  · change s.loadAlu (adcResult s.a m s.p) = _
    rw [adcResult_eq, State.loadAlu_eq]
  · repeat refine .cons ⟨rfl, ⟨rfl, rfl, rfl, fun _ => rfl⟩, rfl⟩ ?_
    exact .nil

/-- Settles O41: the effect of SBC is the binary difference with the byte chosen by D, in each of the eight modes. -/
theorem subtractCompletes : Obligations.SubtractCompletes := by
  intro s b z w
  refine .of_modes (m := .SBC) (eightModes_readRow s b z w) (fun m => ?_) ?_
  · change s.loadAlu (sbcResult s.a m s.p) = _
    rw [sbcResult_eq, State.loadAlu_eq]
  · repeat refine .cons ⟨rfl, ⟨rfl, rfl, rfl, fun _ => rfl⟩, rfl⟩ ?_
    exact .nil

/-- Settles O44: each mnemonic sets the status of `compareFlags` on its register, CMP in the eight modes. -/
theorem comparesComplete : Obligations.ComparesComplete := by
  intro s b z w after
  have heffect : ∀ r m, { s with p := compareFlags r m s.p } = after r m := fun r m =>
    congrArg (fun p => { s with p := p }) (compareFlags_eq r m s.p)
  refine ⟨?cmp, ?cpx, ?cpy⟩
  case cmp =>
    refine .of_modes (m := .CMP) (eightModes_readRow s b z w) (heffect s.a) ?_
    repeat refine .cons ⟨rfl, ⟨rfl, rfl, rfl, fun _ => rfl⟩, rfl⟩ ?_
    exact .nil
  case cpx =>
    exact .cons (readRow_imm s b) ⟨rfl, rfl, rfl, fun _ => rfl⟩ (heffect s.x) <|
      .cons (readRow_zp s z) ⟨rfl, rfl, rfl, fun _ => rfl⟩ (heffect s.x) <|
      .cons (readRow_abs s w) ⟨rfl, rfl, rfl, fun _ => rfl⟩ (heffect s.x) <| .nil s _
  case cpy =>
    exact .cons (readRow_imm s b) ⟨rfl, rfl, rfl, fun _ => rfl⟩ (heffect s.y) <|
      .cons (readRow_zp s z) ⟨rfl, rfl, rfl, fun _ => rfl⟩ (heffect s.y) <|
      .cons (readRow_abs s w) ⟨rfl, rfl, rfl, fun _ => rfl⟩ (heffect s.y) <| .nil s _

/-! ## Bytes by their values -/

/-- Bit 7 of a byte is its upper half. -/
theorem getLsbD_seven (v : Byte) : v.getLsbD 7 = decide (128 ≤ v.toNat) := BitVec.msb_eq_decide v

/-- The signed reading of a byte, by its half. -/
theorem toInt_cases (v : Byte) :
    (v.toNat < 128 ∧ v.toInt = v.toNat) ∨ (128 ≤ v.toNat ∧ v.toInt = v.toNat - 256) := by
  rw [BitVec.toInt_eq_toNat_cond]; split <;> omega

theorem toNat_xor_ff (m : Byte) : (m ^^^ 0xFF#8).toNat = 255 - m.toNat :=
  (congrArg BitVec.toNat BitVec.xor_allOnes).trans BitVec.toNat_not

/-- The complement of a byte reads as one less than the negated byte. -/
theorem toInt_xor_ff (m : Byte) : (m ^^^ 0xFF#8).toInt = -m.toInt - 1 := by
  have hx := toInt_cases (m ^^^ 0xFF#8)
  rw [toNat_xor_ff] at hx
  have hm := toInt_cases m
  have := m.isLt
  omega

theorem toNat_and_0F (v : Byte) : (v &&& 0x0F#8).toNat = v.toNat % 16 :=
  Nat.and_two_pow_sub_one_eq_mod v.toNat 4

theorem toNat_and_F0 (v : Byte) : (v &&& 0xF0#8).toNat = v.toNat / 16 * 16 := by
  revert v; decide

/-! ## The binary sum and difference (R145, R147) -/

theorem adcBin_r_toNat (a m : Byte) (c : Bool) :
    (adcBin a m c).r.toNat = (a.toNat + m.toNat + c.toNat) % 256 := rfl

theorem adcBin_c_iff (a m : Byte) (c : Bool) : (adcBin a m c).c = true ↔ 256 ≤ a.toNat + m.toNat + c.toNat :=
  decide_eq_true_iff

theorem adcBin_v (a m : Byte) (c : Bool) :
    (adcBin a m c).v = ((a ^^^ (adcBin a m c).r) &&& (m ^^^ (adcBin a m c).r)).getLsbD 7 := rfl

theorem adcBin_z_iff (a m : Byte) (c : Bool) : (adcBin a m c).z = true ↔ (adcBin a m c).r = 0#8 := beq_iff_eq

theorem adcBin_n (a m : Byte) (c : Bool) : (adcBin a m c).n = (adcBin a m c).r.getLsbD 7 := rfl

/-- The overflow bit is set when both operands lie in another half than the result. -/
theorem getLsbD_xor_and_xor_iff (a m r : Byte) :
    ((a ^^^ r) &&& (m ^^^ r)).getLsbD 7 = true ↔
      ¬(128 ≤ a.toNat ↔ 128 ≤ r.toNat) ∧ ¬(128 ≤ m.toNat ↔ 128 ≤ r.toNat) := by
  rw [BitVec.getLsbD_and, BitVec.getLsbD_xor, BitVec.getLsbD_xor, getLsbD_seven, getLsbD_seven, getLsbD_seven]
  simp

/-- R145: V is set exactly when the signed sum is out of range. -/
theorem adcBin_v_iff (a m : Byte) (c : Bool) :
    (adcBin a m c).v = true ↔ a.toInt + m.toInt + c.toNat < -128 ∨ 127 < a.toInt + m.toInt + c.toNat := by
  rw [adcBin_v, getLsbD_xor_and_xor_iff, adcBin_r_toNat]
  have := a.isLt
  have := m.isLt
  have := c.toNat_le
  have ha := toInt_cases a
  have hm := toInt_cases m
  omega

/-- Settles O39: V by the halves of the operands and the result, the rest by definition. -/
theorem binaryAddArithmetic : Obligations.BinaryAddArithmetic := fun a m c =>
  ⟨adcBin_r_toNat a m c, adcBin_c_iff a m c, adcBin_v a m c, adcBin_v_iff a m c, adcBin_z_iff a m c, adcBin_n a m c⟩

/-- R147: the binary carry of a difference is the inverted borrow. -/
theorem adcBin_xor_ff_c_iff (a m : Byte) (c : Bool) :
    (adcBin a (m ^^^ 0xFF#8) c).c = true ↔ 0 ≤ (a.toNat : Int) - m.toNat - (1 - c.toNat) := by
  rw [adcBin_c_iff, toNat_xor_ff]
  have := m.isLt
  omega

/-- R147: the overflow bit of the sum with the complement, as the difference states it. -/
theorem adcBin_xor_ff_v (a m : Byte) (c : Bool) :
    (adcBin a (m ^^^ 0xFF#8) c).v = ((a ^^^ m) &&& (a ^^^ (adcBin a (m ^^^ 0xFF#8) c).r)).getLsbD 7 := by
  rw [adcBin_v]
  generalize (adcBin a (m ^^^ 0xFF#8) c).r = r
  simp only [BitVec.getLsbD_and, BitVec.getLsbD_xor]
  generalize a.getLsbD 7 = a7, m.getLsbD 7 = m7, r.getLsbD 7 = r7
  revert a7 m7 r7
  decide

/-- Settles O42: the difference is the sum with the complement, which is `255 - m` unsigned and `-m - 1` signed. -/
theorem binarySubtractArithmetic : Obligations.BinarySubtractArithmetic := by
  intro a m c u d
  refine ⟨?result, adcBin_xor_ff_c_iff a m c, adcBin_xor_ff_v a m c, ?overflow, adcBin_z_iff _ _ c, adcBin_n _ _ c⟩
  case result =>
    have := m.isLt
    rw [adcBin_r_toNat, toNat_xor_ff]
    omega
  case overflow =>
    have hsum : a.toInt + (m ^^^ 0xFF#8).toInt + c.toNat = a.toInt - m.toInt - (1 - c.toNat) := by
      rw [toInt_xor_ff]; ring
    rw [← hsum]
    exact adcBin_v_iff a (m ^^^ 0xFF#8) c

/-! ## Numbers in decimal digits -/

/-- The hexadecimal digits of `x` are the last two decimal digits of `n`, with the hundreds above them. -/
def PacksDecimal (x n : Int) : Prop :=
  ∃ hundreds tens units : Int, x = 256 * hundreds + 16 * tens + units ∧ n = 100 * hundreds + 10 * tens + units ∧
    (0 ≤ tens ∧ tens ≤ 9) ∧ 0 ≤ units ∧ units ≤ 9

/-- A byte that holds the two low digits of a packed number reads as that number modulo 100. -/
theorem PacksDecimal.validBcd_decimal {x n : Int} (h : PacksDecimal x n) {v : Byte} (hv : (v.toNat : Int) = x % 256) :
    validBcd v ∧ (decimal v : Int) = n % 100 := by
  obtain ⟨hundreds, tens, units, rfl, rfl, htens, hunits⟩ := h
  have hbyte : (v.toNat : Int) = 16 * tens + units := by omega
  unfold validBcd decimal
  omega

/-- A packed number has hundreds exactly when the number it reads as does. -/
theorem PacksDecimal.le_iff {x n : Int} (h : PacksDecimal x n) : 0x100 ≤ x ↔ 100 ≤ n := by
  obtain ⟨hundreds, tens, units, rfl, rfl, htens, hunits⟩ := h
  omega

/-- The adjustments test for a carry or for its absence. -/
theorem ite_lt_eq_ite_le {α β : Type} [LinearOrder α] (x y : α) [Decidable (x < y)] [Decidable (y ≤ x)]
    (p q : β) : (if x < y then p else q) = if y ≤ x then q else p := by
  simp only [← not_le, ite_not]

/-! ## The decimal sum (R146) -/

/-- The low digits' sum with its adjustment; a decimal carry stands in bit 4. -/
def lowDigitSum (a m : Byte) (c : Bool) : Nat :=
  let low := a.toNat % 16 + m.toNat % 16 + c.toNat
  if low < 0x0A then low else (low + 0x06) % 0x10 + 0x10

/-- The sum of both digits before the high digit's adjustment, which gives N and V. -/
def digitSum (a m : Byte) (c : Bool) : Nat := a.toNat / 16 * 16 + m.toNat / 16 * 16 + lowDigitSum a m c

/-- The sum with both adjustments, which gives the result and C. -/
def adjustedSum (a m : Byte) (c : Bool) : Nat :=
  if digitSum a m c < 0xA0 then digitSum a m c else digitSum a m c + 0x60

/-- R146: the NMOS sum by its two digit sums. -/
theorem bcdAdc_eq (a m : Byte) (c : Bool) :
    bcdAdc a m c =
      { r := BitVec.ofNat 8 (adjustedSum a m c), c := decide (0x100 ≤ adjustedSum a m c),
        v := (a.getLsbD 7 ^^ (digitSum a m c).testBit 7) && (m.getLsbD 7 ^^ (digitSum a m c).testBit 7),
        z := (a.toNat + m.toNat + c.toNat) % 256 == 0, n := (digitSum a m c).testBit 7 } := by
  simp only [bcdAdc, adjustedSum, digitSum, lowDigitSum, ite_lt_eq_ite_le, bitOf]

theorem bcdAdc_r_toNat (a m : Byte) (c : Bool) : (bcdAdc a m c).r.toNat = adjustedSum a m c % 256 := by
  rw [bcdAdc_eq]; rfl

theorem bcdAdc_c_iff (a m : Byte) (c : Bool) : (bcdAdc a m c).c = true ↔ 0x100 ≤ adjustedSum a m c := by
  rw [bcdAdc_eq, decide_eq_true_iff]

theorem bcdAdc_n (a m : Byte) (c : Bool) : (bcdAdc a m c).n = (digitSum a m c).testBit 7 := by
  rw [bcdAdc_eq]

theorem bcdAdc_v (a m : Byte) (c : Bool) :
    (bcdAdc a m c).v =
      ((a ^^^ BitVec.ofNat 8 (digitSum a m c)) &&& (m ^^^ BitVec.ofNat 8 (digitSum a m c))).getLsbD 7 := by
  rw [bcdAdc_eq, BitVec.getLsbD_and, BitVec.getLsbD_xor, BitVec.getLsbD_xor, BitVec.getLsbD_ofNat]; rfl

theorem bcdAdc_z_iff (a m : Byte) (c : Bool) :
    (bcdAdc a m c).z = true ↔ (a.toNat + m.toNat + c.toNat) % 256 = 0 := beq_iff_eq

/-- A decimal carry out of the low digits stands above the units. -/
theorem lowDigitSum_of_validBcd {a m : Byte} (ha : validBcd a) (hm : validBcd m) (c : Bool) :
    ∃ carry units : Nat, lowDigitSum a m c = 16 * carry + units ∧
      a.toNat % 16 + m.toNat % 16 + c.toNat = 10 * carry + units ∧ carry ≤ 1 ∧ units ≤ 9 := by
  have haLow := ha.2
  have hmLow := hm.2
  have := c.toNat_le
  rw [lowDigitSum]
  split
  · exact ⟨0, a.toNat % 16 + m.toNat % 16 + c.toNat, by omega⟩
  · exact ⟨1, a.toNat % 16 + m.toNat % 16 + c.toNat - 10, by omega⟩

/-- For valid BCD operands the adjusted sum is the decimal sum, digit by digit. -/
theorem adjustedSum_packsDecimal {a m : Byte} (ha : validBcd a) (hm : validBcd m) (c : Bool) :
    PacksDecimal (adjustedSum a m c) (decimal a + decimal m + c.toNat) := by
  obtain ⟨carry, units, hlow, hunits, hcarry, hle⟩ := lowDigitSum_of_validBcd ha hm c
  have haHigh := ha.1
  have hmHigh := hm.1
  have := c.toNat_le
  rw [adjustedSum, digitSum, hlow, decimal, decimal]
  split
  · exact ⟨0, a.toNat / 16 + m.toNat / 16 + carry, units, by omega⟩
  · exact ⟨1, a.toNat / 16 + m.toNat / 16 + carry - 10, units, by omega⟩

/-- Settles O40: the digit-wise sums are those of the model; on valid BCD they are the decimal sum in packed form. -/
theorem decimalAddArithmetic : Obligations.DecimalAddArithmetic := by
  intro a m c
  simp only [toNat_and_0F, toNat_and_F0]
  refine ⟨bcdAdc_r_toNat a m c, bcdAdc_c_iff a m c, bcdAdc_n a m c, bcdAdc_v a m c, bcdAdc_z_iff a m c,
    fun ha hm => ?_⟩
  have hsum := adjustedSum_packsDecimal ha hm c
  obtain ⟨hvalid, hdecimal⟩ := hsum.validBcd_decimal (congrArg Nat.cast (bcdAdc_r_toNat a m c))
  refine ⟨hvalid, by exact_mod_cast hdecimal, ?_⟩
  rw [bcdAdc_c_iff]
  exact_mod_cast hsum.le_iff

/-! ## The decimal difference (R148) -/

/-- The low digits' difference with its adjustment; a decimal borrow makes it negative. -/
def lowDigitDiff (a m : Byte) (c : Bool) : Int :=
  let low : Int := (a.toNat % 16 : Nat) - (m.toNat % 16 : Nat) + c.toNat - 1
  if 0 ≤ low then low else (low - 0x06) % 16 - 0x10

/-- The difference of both digits before the high digit's adjustment. -/
def digitDiff (a m : Byte) (c : Bool) : Int :=
  (a.toNat / 16 * 16 : Nat) - (m.toNat / 16 * 16 : Nat) + lowDigitDiff a m c

/-- The difference with both adjustments, which gives the result. -/
def adjustedDiff (a m : Byte) (c : Bool) : Int :=
  if 0 ≤ digitDiff a m c then digitDiff a m c else digitDiff a m c - 0x60

/-- R148: the NMOS difference by its digit difference. -/
theorem bcdSbc_eq (a m : Byte) (c : Bool) : bcdSbc a m c = BitVec.ofInt 8 (adjustedDiff a m c) := by
  simp only [bcdSbc, adjustedDiff, digitDiff, lowDigitDiff, ite_lt_eq_ite_le]
  rfl

theorem bcdSbc_toNat (a m : Byte) (c : Bool) : ((bcdSbc a m c).toNat : Int) = adjustedDiff a m c % 256 := by
  rw [bcdSbc_eq, BitVec.toNat_ofInt]
  omega

/-- A decimal borrow of the low digits stands above the units. -/
theorem lowDigitDiff_of_validBcd {a m : Byte} (ha : validBcd a) (hm : validBcd m) (c : Bool) :
    ∃ borrow units : Int, lowDigitDiff a m c = units - 16 * borrow ∧
      (a.toNat % 16 : Nat) - (m.toNat % 16 : Nat) - (1 - c.toNat : Int) = units - 10 * borrow ∧
      (0 ≤ borrow ∧ borrow ≤ 1) ∧ 0 ≤ units ∧ units ≤ 9 := by
  have haLow := ha.2
  have hmLow := hm.2
  have := c.toNat_le
  rw [lowDigitDiff]
  split
  · exact ⟨0, a.toNat % 16 - m.toNat % 16 + c.toNat - 1, by omega⟩
  · exact ⟨1, a.toNat % 16 - m.toNat % 16 + c.toNat + 9, by omega⟩

/-- For valid BCD operands the adjusted difference is the decimal difference, digit by digit. -/
theorem adjustedDiff_packsDecimal {a m : Byte} (ha : validBcd a) (hm : validBcd m) (c : Bool) :
    PacksDecimal (adjustedDiff a m c) (decimal a - decimal m - (1 - c.toNat)) := by
  obtain ⟨borrow, units, hlow, hunits, hborrow, hle⟩ := lowDigitDiff_of_validBcd ha hm c
  have haHigh := ha.1
  have hmHigh := hm.1
  have := c.toNat_le
  rw [adjustedDiff, digitDiff, hlow, decimal, decimal]
  split
  · exact ⟨0, a.toNat / 16 - m.toNat / 16 - borrow, units, by omega⟩
  · exact ⟨-1, a.toNat / 16 - m.toNat / 16 - borrow + 10, units, by omega⟩

/-- On valid BCD operands a decimal borrow occurs exactly when a binary one does. -/
theorem decimal_diff_nonneg_iff {a m : Byte} (ha : validBcd a) (hm : validBcd m) (c : Bool) :
    0 ≤ (a.toNat : Int) - m.toNat - (1 - c.toNat) ↔ 0 ≤ (decimal a : Int) - decimal m - (1 - c.toNat) := by
  obtain ⟨-, haLow⟩ := ha
  obtain ⟨-, hmLow⟩ := hm
  have := c.toNat_le
  unfold decimal
  omega

/-- Settles O43: the digit-wise differences are those of the model; on valid BCD they are the decimal difference in
packed form, and byte order is decimal order. -/
theorem decimalSubtractArithmetic : Obligations.DecimalSubtractArithmetic := by
  intro a m c
  simp only [toNat_and_0F, toNat_and_F0]
  refine ⟨bcdSbc_toNat a m c, fun ha hm => ?_⟩
  obtain ⟨hvalid, hdecimal⟩ := (adjustedDiff_packsDecimal ha hm c).validBcd_decimal (bcdSbc_toNat a m c)
  exact ⟨hvalid, hdecimal, (adcBin_xor_ff_c_iff a m c).trans (decimal_diff_nonneg_iff ha hm c)⟩

end Sys2Proof.Machine

/-! SUPPORT. Increments, decrements, shifts and rotates (44_incdec_shift.md): the operations as the statements write
them, and the memory and accumulator forms of an operation, once for all of them. -/

namespace Sys2Proof.Machine

open Sys2Proof.Claims

/-! ## The operations as the statements write them (R160, R161, R166 to R169) -/

theorem incOp_eq (m : Byte) (p : Status) : incOp m p = (m + 1#8, withZN p (m + 1#8)) := by
  rw [← setZN_eq_withZN]; rfl

theorem decOp_eq (m : Byte) (p : Status) : decOp m p = (m - 1#8, withZN p (m - 1#8)) := by
  rw [← setZN_eq_withZN]; rfl

theorem aslOp_eq (m : Byte) (p : Status) :
    aslOp m p = (m <<< 1, { withZN p (m <<< 1) with c := m.getLsbD 7 }) := by
  rw [← setZN_eq_withZN]; rfl

/-- A right shift brings 0 into bit 7. -/
theorem getLsbD_seven_ushiftRight (m : Byte) : (m >>> 1).getLsbD 7 = false := by
  rw [BitVec.getLsbD_ushiftRight]; exact m.getLsbD_of_ge 8 le_rfl

/-- R167: the result of LSR is never negative. -/
theorem lsrOp_eq (m : Byte) (p : Status) :
    lsrOp m p = (m >>> 1, { p with z := decide (m >>> 1 = 0#8), n := false, c := m.getLsbD 0 }) := by
  calc lsrOp m p = (m >>> 1, { withZN p (m >>> 1) with c := m.getLsbD 0 }) := by rw [← setZN_eq_withZN]; rfl
    _ = _ := by rw [withZN, getLsbD_seven_ushiftRight]

theorem rolOp_eq (m : Byte) (p : Status) :
    rolOp m p = (BitVec.ofNat 8 (2 * m.toNat + p.c.toNat),
      { withZN p (BitVec.ofNat 8 (2 * m.toNat + p.c.toNat)) with c := m.getLsbD 7 }) := by
  rw [← rolOp_fst, ← setZN_eq_withZN]; rfl

/-- The old carry is bit 7 of the byte that ROR answers. -/
theorem getLsbD_seven_rorOp (m : Byte) (p : Status) : (rorOp m p).1.getLsbD 7 = p.c := by
  show ((m >>> 1) ||| ((BitVec.ofBool p.c).setWidth 8 <<< 7)).getLsbD 7 = p.c
  rw [BitVec.getLsbD_or, getLsbD_seven_ushiftRight]
  simp

/-- R169: the old carry is the sign of the result of ROR. -/
theorem rorOp_eq (m : Byte) (p : Status) :
    rorOp m p = (BitVec.ofNat 8 (m.toNat / 2 + 128 * p.c.toNat),
      { p with z := decide (BitVec.ofNat 8 (m.toNat / 2 + 128 * p.c.toNat) = 0#8), n := p.c, c := m.getLsbD 0 }) := by
  rw [← rorOp_fst]
  calc rorOp m p = ((rorOp m p).1, { withZN p (rorOp m p).1 with c := m.getLsbD 0 }) := by
        rw [← setZN_eq_withZN]; rfl
    _ = _ := by rw [withZN, getLsbD_seven_rorOp]

/-! ## The read-modify-write forms (R114) -/

/-- `i` is the form of the operation `f` on memory, with the opcode `op`, the mode `m` and its cycles. -/
structure RmwForm (f : RmwOp) (i : Instr) (op : Byte) (m : MemMode) (cycles : Nat) : Prop where
  accessClass_eq : accessClass i = .readModifyWrite
  operand_eq : instrOperand i = .memory m
  rmwOp_eq : rmwOpOf i = f
  encode_eq : encode i = op :: m.bytes
  exec_eq : ∀ s, exec i s = .next (rmwMemory f m cycles s)

/-- R62: the fetch, the pointer, one read and one write of the effective address. -/
theorem RmwForm.busTrace_eq {f : RmwOp} {i : Instr} {op : Byte} {m : MemMode} {cycles : Nat}
    (h : RmwForm f i op m cycles) (s : State) :
    busTrace i s = fetchReads s m.length ++ (m.pointers s).map .read ++
      [.read (m.ea s), .write (m.ea s) (f (s.readMem (m.ea s)) s.p).1] := by
  rw [busTrace_memory (by simp [h.accessClass_eq]) h.operand_eq, operandAccesses_rmw h.accessClass_eq h.operand_eq,
    h.rmwOp_eq]

/-- `i` is the form of the operation `f` on A, with the opcode `op` and its cycles. -/
structure AccumulatorForm (f : RmwOp) (i : Instr) (op : Byte) (cycles : Nat) : Prop where
  operand_eq : instrOperand i = .accumulator
  encode_eq : encode i = [op]
  exec_eq : ∀ s, exec i s = .next (rmwAccumulator f cycles s)

/-- An accumulator form makes no transaction but the fetch. -/
theorem busTrace_accumulator {i : Instr} (ho : instrOperand i = .accumulator) (s : State) :
    busTrace i s = fetchReads s 1 := by
  have hoperand : operandAccesses i s = [] := operandAccesses_eq_nil (by simp [ho]) s
  have hstack : stackAccesses i s = [] := stackAccesses_eq_nil (by simp [ho]) (by rintro w rfl; cases ho) s
  rw [busTrace, hoperand, hstack, ho, fetchAccesses_eq_fetchReads]
  simp [Operand.bytesConsumed, pointerAccesses]

/-- An accumulator form by the byte and the status its operation makes of A. -/
theorem AccumulatorForm.oneByte {f : RmwOp} {i : Instr} {op r : Byte} {p : Status} {cycles : Nat} {s : State}
    (h : AccumulatorForm f i op cycles) (hf : f s.a s.p = (r, p)) :
    OneByte i op cycles s { s with a := r, p := p } [] := by
  refine ⟨h.encode_eq, ?_, by rw [busTrace_accumulator h.operand_eq, List.append_nil]⟩
  rw [h.exec_eq, rmwAccumulator_eq, hf]

end Sys2Proof.Machine

namespace Sys2Proof.Claims

open Sys2Proof.Machine

/-! ## Lists of read-modify-write forms (44_incdec_shift.md, the four-mode table) -/

/-- A read-modify-write form belongs to a list when its row is that of its mode and its operation makes the list's byte
and status of the operand. -/
theorem WriteForms.cons_rmw {f : RmwOp} {i : Instr} {op : Byte} {m : MemMode} {cycles : Nat} {row : WriteRow}
    {s : State} {out : Byte → Byte} {status : Byte → Status} {forms : List (Instr × Byte × WriteRow)}
    (hrow : m.writeRow cycles s = row) (h : RmwForm f i op m cycles) (hf : ∀ v, f v s.p = (out v, status v))
    (hforms : WriteForms forms s true out status) : WriteForms ((i, op, row) :: forms) s true out status := by
  subst hrow
  have hexec := h.exec_eq s
  have hbus := h.busTrace_eq s
  rw [rmwMemory, hf] at hexec
  rw [hf] at hbus
  refine List.forall_mem_cons.2 ⟨⟨h.encode_eq, exec_write_effect hexec, ?_⟩, hforms⟩
  rw [hbus]; simp [MemMode.writeRow]

/-- The forms of one operation in the four modes of read-modify-write: zp, zpx, abs and absx, at 5, 6, 6 and 7
cycles. -/
theorem WriteForms.of_rmwModes {f : RmwOp} {s : State} {z : Byte} {w : Word} {out : Byte → Byte}
    {status : Byte → Status} {zp zpx abs absx : Instr} {opZp opZpx opAbs opAbsx : Byte}
    (hf : ∀ v, f v s.p = (out v, status v)) (hzp : RmwForm f zp opZp (.zp z) 5)
    (hzpx : RmwForm f zpx opZpx (.zpx z) 6) (habs : RmwForm f abs opAbs (.abs w) 6)
    (habsx : RmwForm f absx opAbsx (.absx w) 7) :
    WriteForms [(zp, opZp, writeZp z 5), (zpx, opZpx, writeZpx s z 6), (abs, opAbs, writeAbs w 6),
      (absx, opAbsx, writeAbsx s w 7)] s true out status :=
  .cons_rmw rfl hzp hf <| .cons_rmw rfl hzpx hf <| .cons_rmw rfl habs hf <| .cons_rmw rfl habsx hf <| .nil s _ _ _

end Sys2Proof.Claims

namespace Sys2Proof.Machine

open Sys2Proof.Claims

/-! ## The increments, shifts and rotates (R160 to R169) -/

/-- Settles O45: INC and DEC by their operation in each of the four modes, the register forms as loads of their
register. -/
theorem incrementsComplete : Obligations.IncrementsComplete := by
  intro s z w
  refine ⟨?inc, ?dec, ?inx, ?iny, ?dex, ?dey⟩
  case inc =>
    refine .of_rmwModes (f := incOp) (fun m => incOp_eq m s.p) ?_ ?_ ?_ ?_
    all_goals exact ⟨rfl, rfl, rfl, rfl, fun _ => rfl⟩
  case dec =>
    refine .of_rmwModes (f := decOp) (fun m => decOp_eq m s.p) ?_ ?_ ?_ ?_
    all_goals exact ⟨rfl, rfl, rfl, rfl, fun _ => rfl⟩
  case inx => exact ImpliedForm.oneByte ⟨rfl, rfl, fun _ => rfl⟩ (s.loadX_eq_withZN (s.x + 1#8)) rfl
  case iny => exact ImpliedForm.oneByte ⟨rfl, rfl, fun _ => rfl⟩ (s.loadY_eq_withZN (s.y + 1#8)) rfl
  case dex => exact ImpliedForm.oneByte ⟨rfl, rfl, fun _ => rfl⟩ (s.loadX_eq_withZN (s.x - 1#8)) rfl
  case dey => exact ImpliedForm.oneByte ⟨rfl, rfl, fun _ => rfl⟩ (s.loadY_eq_withZN (s.y - 1#8)) rfl

/-- Settles O46: each operation in its four modes and on A. -/
theorem shiftsComplete : Obligations.ShiftsComplete := by
  intro s z w asl lsr
  refine ⟨?asl, ?aslAcc, ?lsr, ?lsrAcc⟩
  case asl =>
    refine .of_rmwModes (f := aslOp) (fun m => aslOp_eq m s.p) ?_ ?_ ?_ ?_
    all_goals exact ⟨rfl, rfl, rfl, rfl, fun _ => rfl⟩
  case aslAcc => exact AccumulatorForm.oneByte ⟨rfl, rfl, fun _ => rfl⟩ (aslOp_eq s.a s.p)
  case lsr =>
    refine .of_rmwModes (f := lsrOp) (fun m => lsrOp_eq m s.p) ?_ ?_ ?_ ?_
    all_goals exact ⟨rfl, rfl, rfl, rfl, fun _ => rfl⟩
  case lsrAcc => exact AccumulatorForm.oneByte ⟨rfl, rfl, fun _ => rfl⟩ (lsrOp_eq s.a s.p)

/-- Settles O47: each operation in its four modes and on A; the rotations by value are those of `rolOp_fst` and
`rorOp_fst`. -/
theorem rotatesComplete : Obligations.RotatesComplete := by
  intro s z w left right rol ror
  refine ⟨?rol, ?rolAcc, ?ror, ?rorAcc⟩
  case rol =>
    refine .of_rmwModes (f := rolOp) (fun m => rolOp_eq m s.p) ?_ ?_ ?_ ?_
    all_goals exact ⟨rfl, rfl, rfl, rfl, fun _ => rfl⟩
  case rolAcc => exact AccumulatorForm.oneByte ⟨rfl, rfl, fun _ => rfl⟩ (rolOp_eq s.a s.p)
  case ror =>
    refine .of_rmwModes (f := rorOp) (fun m => rorOp_eq m s.p) ?_ ?_ ?_ ?_
    all_goals exact ⟨rfl, rfl, rfl, rfl, fun _ => rfl⟩
  case rorAcc => exact AccumulatorForm.oneByte ⟨rfl, rfl, fun _ => rfl⟩ (rorOp_eq s.a s.p)

end Sys2Proof.Machine

/-! SUPPORT. Jumps, calls and branches (45_control_flow.md): the transactions of an instruction without data access,
the stack after a JSR, the state after an RTS, and the eight branches by their condition. -/

namespace Sys2Proof.Machine

open Sys2Proof.Claims

/-! ## The transactions of a transfer of control (R62) -/

/-- R114: the address of a jump or branch is its target; nothing is read or written there. -/
theorem operandAccesses_jumpTarget {i : Instr} (hc : accessClass i = .jumpTarget) (s : State) :
    operandAccesses i s = [] := by
  cases ho : instrOperand i <;> simp [operandAccesses, ho, hc]

/-- A jump, call or branch makes the fetch, the reads of its pointer and the accesses of the stack. -/
theorem busTrace_jumpTarget {i : Instr} (hc : accessClass i = .jumpTarget) (s : State) :
    busTrace i s = fetchReads s (1 + (instrOperand i).bytesConsumed) ++ pointerAccesses (instrOperand i) s ++
      stackAccesses i s := by
  rw [busTrace, operandAccesses_jumpTarget hc, List.append_nil, fetchAccesses_eq_fetchReads]

/-! ## JMP (R170) -/

/-- Settles O48: each form is a jump; the pointer is read with the page-boundary bug of `read16PageWrap`. -/
theorem jumpsComplete : Obligations.JumpsComplete := by
  intro s w
  refine ⟨rfl, rfl, ?abs, rfl, rfl, ?ind⟩
  case abs => exact (busTrace_jumpTarget (i := .jmpAbs w) rfl s).trans (List.append_nil _)
  case ind => exact (busTrace_jumpTarget (i := .jmpInd w) rfl s).trans (List.append_nil _)

/-! ## JSR and RTS (R172, R173) -/

/-- What the two pushes of a Word leave at every address, by the slots of the statements. -/
theorem State.readMem_pushWord_slots (s : State) (v a : Word) :
    (s.pushWord v).readMem a =
      if stackSlot s 1 = a then loByte v else if stackSlot s 0 = a then hiByte v else s.readMem a := by
  rw [State.readMem_pushWord, stackSlot_zero]; rfl

theorem stackSlot_one_ne_zero (s : State) : stackSlot s 1 ≠ stackSlot s 0 := by
  rw [stackSlot_zero]
  exact stackSlot_ne (by bv_omega)

/-- R172: every field of the state after a JSR; its memory is that after the push of a Word. -/
theorem exec_jsr (s : State) (w : Word) :
    exec (.jsr w) s = .next { s with
      mem := (s.pushWord (s.pc + 2#16)).mem, sp := s.sp - 2#8, pc := w, cyc := s.cyc + 6 } := by
  have hsp : s.sp - 1#8 - 1#8 = s.sp - 2#8 := by bv_omega
  rw [← hsp]; rfl

/-- R173: every field of the state after an RTS. -/
theorem exec_rts (s : State) :
    exec .rts s = .next { s with
      sp := s.sp + 2#8, cyc := s.cyc + 6,
      pc := mkWord (s.readMem (mkWord 0x01#8 (s.sp + 2#8))) (s.readMem (mkWord 0x01#8 (s.sp + 1#8))) + 1#16 } := by
  have hsp : s.sp + 1#8 + 1#8 = s.sp + 2#8 := by bv_omega
  rw [← hsp]; rfl

theorem pullAccesses_two (s : State) :
    pullAccesses s 2 = [.read (mkWord 0x01#8 (s.sp + 1#8)), .read (mkWord 0x01#8 (s.sp + 2#8))] := by
  have hsp : s.sp + 1#8 + 1#8 = s.sp + 2#8 := by bv_omega
  rw [← hsp]; rfl

/-- Settles O49: JSR pushes one Word, whose bytes lie in two different slots; RTS pulls the two bytes above SP. -/
theorem callAndReturnComplete : Obligations.CallAndReturnComplete := by
  intro s w
  refine ⟨⟨rfl, ?jsrTrace, _, exec_jsr s w, rfl, ?high, ?low, fun a h0 h1 => ?other⟩, ?rtsTrace, rfl, exec_rts s⟩
  case jsrTrace => rw [busTrace_jumpTarget rfl, stackSlot_zero]; rfl
  case high => exact (s.readMem_pushWord_slots _ _).trans ((if_neg (stackSlot_one_ne_zero s)).trans (if_pos rfl))
  case low => exact (s.readMem_pushWord_slots _ _).trans (if_pos rfl)
  case other => exact (s.readMem_pushWord_slots _ _).trans ((if_neg h1.symm).trans (if_neg h0.symm))
  case rtsTrace => rw [busTrace_implied rfl, ← pullAccesses_two]; rfl

/-- Settles O50: the RTS finds SP two below its old value, so it pulls the two bytes that the JSR pushed. -/
theorem returnAfterCall : Obligations.ReturnAfterCall := by
  intro s t w h
  obtain ⟨⟨-, -, u, hexec, hfields, hhigh, hlow, -⟩, -⟩ := callAndReturnComplete s w
  obtain rfl : u = t := Host.Outcome.next.inj (hexec.symm.trans h)
  have hsp : u.sp = s.sp - 2#8 := congrArg State.sp hfields
  have hslot1 : mkWord 0x01#8 (u.sp + 1#8) = stackSlot s 1 := by
    rw [hsp, stackSlot]; congr 1; bv_omega
  have hslot0 : mkWord 0x01#8 (u.sp + 2#8) = stackSlot s 0 := by
    rw [hsp, stackSlot]; congr 1; bv_omega
  have hret : s.pc + 2#16 + 1#16 = s.pc + 3#16 := by bv_omega
  rw [exec_rts, hslot0, hslot1, hhigh, hlow, mkWord_hiByte_loByte, hret, hsp, BitVec.sub_add_cancel, hfields]

/-! ## The branches (R174 to R182) -/

/-- `i` is the branch with the opcode `op` and the displacement `d`. -/
structure BranchForm (i : Instr) (op d : Byte) : Prop where
  accessClass_eq : accessClass i = .jumpTarget
  operand_eq : instrOperand i = .relative d
  encode_eq : encode i = [op, d]
  exec_eq : ∀ s, exec i s = .next (branchIf (branchTaken i s) d 2 s)

/-- A branch reads its two bytes and no others. -/
theorem BranchForm.busTrace_eq {i : Instr} {op d : Byte} (h : BranchForm i op d) (s : State) :
    busTrace i s = fetchReads s 2 := by
  have hstack : stackAccesses i s = [] :=
    stackAccesses_eq_nil (by simp [h.operand_eq]) (by rintro w rfl; cases h.operand_eq) s
  rw [busTrace_jumpTarget h.accessClass_eq, hstack, h.operand_eq, List.append_nil]
  exact List.append_nil _

/-- A branch by the condition under which the model takes it: to the target at one more cycle and the page cost, else
to the next instruction. -/
theorem BranchForm.completes {i : Instr} {op d : Byte} (h : BranchForm i op d) {s : State} {cond : Prop}
    (hcond : branchTaken i s = true ↔ cond) :
    let next := s.pc + 2#16
    let target := next + d.signExtend 16
    encode i = [op, d] ∧ busTrace i s = fetchReads s 2 ∧
      (cond → exec i s = .next { s with pc := target, cyc := s.cyc + (3 + pageCost next target) }) ∧
      (¬ cond → exec i s = .next { s with pc := next, cyc := s.cyc + 2 }) := by
  refine ⟨h.encode_eq, h.busTrace_eq s, fun hc => ?taken, fun hc => ?notTaken⟩
  case taken => rw [h.exec_eq, hcond.2 hc, branchIf_taken, crossed_toNat]; rfl
  case notTaken => rw [h.exec_eq, Bool.eq_false_iff.2 fun ht => hc (hcond.1 ht), branchIf_not_taken]; rfl

/-- Settles O51: each branch by the flag it tests, as it is or negated. -/
theorem branchesComplete : Obligations.BranchesComplete := by
  intro s d
  refine List.forall_mem_cons.2 ⟨?bcc, List.forall_mem_cons.2 ⟨?bcs, List.forall_mem_cons.2 ⟨?beq,
    List.forall_mem_cons.2 ⟨?bne, List.forall_mem_cons.2 ⟨?bmi, List.forall_mem_cons.2 ⟨?bpl,
    List.forall_mem_cons.2 ⟨?bvc, List.forall_mem_cons.2 ⟨?bvs, List.forall_mem_nil _⟩⟩⟩⟩⟩⟩⟩⟩
  case bcc => exact BranchForm.completes ⟨rfl, rfl, rfl, fun _ => rfl⟩ (.of_eq (Bool.not_eq_true' s.p.c))
  case bcs => exact BranchForm.completes ⟨rfl, rfl, rfl, fun _ => rfl⟩ .rfl
  case beq => exact BranchForm.completes ⟨rfl, rfl, rfl, fun _ => rfl⟩ .rfl
  case bne => exact BranchForm.completes ⟨rfl, rfl, rfl, fun _ => rfl⟩ (.of_eq (Bool.not_eq_true' s.p.z))
  case bmi => exact BranchForm.completes ⟨rfl, rfl, rfl, fun _ => rfl⟩ .rfl
  case bpl => exact BranchForm.completes ⟨rfl, rfl, rfl, fun _ => rfl⟩ (.of_eq (Bool.not_eq_true' s.p.n))
  case bvc => exact BranchForm.completes ⟨rfl, rfl, rfl, fun _ => rfl⟩ (.of_eq (Bool.not_eq_true' s.p.v))
  case bvs => exact BranchForm.completes ⟨rfl, rfl, rfl, fun _ => rfl⟩ .rfl

end Sys2Proof.Machine

/-! SUPPORT. Flags, NOP, BRK and RTI (46_flags_system.md): the transactions of an interrupt entry and of the return
from one as the statements write them, and the ten instructions by their effects. -/

namespace Sys2Proof.Machine

open Sys2Proof.Claims

/-! ## The flag instructions and NOP (R190 to R197) -/

/-- Settles O52: each is the implied form of its mnemonic, whose effect writes the one flag and which leaves the stack
alone. -/
theorem flagInstructionsComplete : Obligations.FlagInstructionsComplete := by
  intro s
  refine ⟨?clc, ?sec, ?cli, ?sei, ?cld, ?sed, ?clv, ?nop⟩
  case clc => exact ImpliedForm.oneByte ⟨rfl, rfl, fun _ => rfl⟩ rfl rfl
  case sec => exact ImpliedForm.oneByte ⟨rfl, rfl, fun _ => rfl⟩ rfl rfl
  case cli => exact ImpliedForm.oneByte ⟨rfl, rfl, fun _ => rfl⟩ rfl rfl
  case sei => exact ImpliedForm.oneByte ⟨rfl, rfl, fun _ => rfl⟩ rfl rfl
  case cld => exact ImpliedForm.oneByte ⟨rfl, rfl, fun _ => rfl⟩ rfl rfl
  case sed => exact ImpliedForm.oneByte ⟨rfl, rfl, fun _ => rfl⟩ rfl rfl
  case clv => exact ImpliedForm.oneByte ⟨rfl, rfl, fun _ => rfl⟩ rfl rfl
  case nop => exact ImpliedForm.oneByte ⟨rfl, rfl, fun _ => rfl⟩ rfl rfl

/-! ## BRK (R198, R220) -/

/-- R220: the third push of an entry writes the slot two below SP, the first two those at SP and one below. -/
theorem entryAccesses_eq_entryTransactions (s : State) (vector ret : Word) (b : Bool) :
    entryAccesses s vector ret b = entryTransactions s vector (vector + 1#16) ret b := by
  have hslot2 : mkWord Config.stackPage (s.sp - 1#8 - 1#8) = stackSlot s 2 := by
    rw [stackSlot]; congr 1; bv_omega
  rw [entryTransactions, stackSlot_zero, ← hslot2]; rfl

/-- Settles O53: BRK is the entry of R220 at the IRQ vector, whose two bytes lie outside the stack page. -/
theorem breakCompletes : Obligations.BreakCompletes := by
  intro s
  refine ⟨rfl, ?trace, _, rfl, State.interruptEntry_nmiPending .., ?effect⟩
  case trace => exact (busTrace_implied rfl s).trans (congrArg _ (entryAccesses_eq_entryTransactions ..))
  case effect => exact s.interruptEntry_effect (vector := Config.vecIrq) _ true 7 (by decide) (by decide)

/-! ## RTI (R199) -/

theorem pullAccesses_three (s : State) :
    pullAccesses s 3 = [.read (mkWord 0x01#8 (s.sp + 1#8)), .read (mkWord 0x01#8 (s.sp + 2#8)),
      .read (mkWord 0x01#8 (s.sp + 3#8))] := by
  have hsp2 : s.sp + 1#8 + 1#8 = s.sp + 2#8 := by bv_omega
  have hsp3 : s.sp + 1#8 + 1#8 + 1#8 = s.sp + 3#8 := by bv_omega
  rw [← hsp2, ← hsp3]; rfl

/-- Settles O54: RTI is the return from an interrupt, three pulls. -/
theorem returnFromInterruptCompletes : Obligations.ReturnFromInterruptCompletes := by
  intro s
  refine ⟨rfl, ?trace, congrArg _ (s.interruptReturn_eq 6)⟩
  case trace => exact (busTrace_implied rfl s).trans (congrArg _ (pullAccesses_three s))

end Sys2Proof.Machine

/-! SUPPORT. Exceptions (60_exceptions.md): the fetch against the decoder, the undefined opcodes as the only fault, the
two interrupt entries, the return from an entry, and the mask I. -/

namespace Sys2Proof.Machine

open Sys2Proof.Claims

/-! ## The fetch (R57, R83, R200) -/

/-- What the decoder reads from the three bytes at PC is the fetched instruction. -/
theorem State.fetch_of_decode {s : State} {i : Instr} {rest : List Byte}
    (h : decode [s.readMem s.pc, s.readMem (s.pc + 1#16), s.readMem (s.pc + 2#16)] = .ok (i, rest)) : s.fetch = i := by
  obtain ⟨rest', hfetch⟩ := decode_three s.opcode (s.byteAt 1) (s.byteAt 2)
  exact congrArg Prod.fst (Except.ok.inj (hfetch.symm.trans h))

/-- Settles O10: the fetch reads what the decoder reads, and a step with no interrupt due is `exec` of it. -/
theorem stepRunsDecodedInstruction : Obligations.StepRunsDecodedInstruction := by
  intro s i rest hn hmask hdec
  rw [step_quiet ⟨hn, hmask⟩, State.fetch_of_decode hdec]

/-- The bytes of a cell begin with its opcode. -/
theorem Entry.head?_bytes (op b1 b2 : Byte) (e : Entry) : (e.bytes op b1 b2).head? = some op := by cases e <;> rfl

/-- R85, R200: a fetch meets an undefined instruction exactly at a listed opcode byte, and the instruction holds that
byte. -/
theorem State.fetch_eq_undefined_iff (s : State) (op : Byte) :
    s.fetch = .undefined op ↔ op = s.opcode ∧ op.toNat ∈ undefinedOpcodes := by
  constructor
  · intro h
    obtain ⟨henc, hwf⟩ := encode_entryInstr s.opcode (s.byteAt 1) (s.byteAt 2)
    change encode s.fetch = _ at henc
    change s.fetch.wellFormed = true at hwf
    rw [h] at henc hwf
    have hhead := (congrArg List.head? henc).trans (Entry.head?_bytes ..)
    exact ⟨Option.some.inj hhead, List.contains_iff_mem.1 hwf⟩
  · rintro ⟨rfl, hmem⟩
    rw [State.fetch, opcodeEntry_of_listed (List.contains_iff_mem.2 hmem)]; rfl

/-! ## Faults (R12, R200, R210) -/

/-- Every defined instruction answers a next state from every state. -/
theorem exec_completes {i : Instr} (h : ∀ op, i ≠ .undefined op) (s : State) : ∃ t, exec i s = .next t := by
  rcases exec_form i with ⟨op, rfl⟩ | ⟨f, -, he⟩
  · exact absurd rfl (h op)
  · exact ⟨f s, he s⟩

theorem exec_eq_fault_iff (i : Instr) (s : State) (f : Fault) :
    exec i s = .fault f ↔ ∃ op, i = .undefined op ∧ f = .illegalOpcode s.pc op := by
  constructor
  · intro h
    rcases exec_form i with ⟨op, rfl⟩ | ⟨g, -, he⟩
    · exact ⟨op, rfl, (Host.Outcome.fault.inj h).symm⟩
    · exact nomatch (he s).symm.trans h
  · rintro ⟨op, rfl, rfl⟩; rfl

theorem step_eq_fault_iff (s : State) (f : Fault) :
    step s = .fault f ↔ s.quiet ∧ exec s.fetch s = .fault f := by
  constructor
  · intro h
    rcases boundary_cases s with hn | ⟨hn, hl, hi⟩ | hq
    · exact nomatch (step_nmi hn).symm.trans h
    · exact nomatch (step_irq hn hl hi).symm.trans h
    · exact ⟨hq, (step_quiet hq).symm.trans h⟩
  · rintro ⟨hq, h⟩
    exact (step_quiet hq).trans h

/-- Everything a step can answer: no step is refused. -/
theorem step_outcome (s : State) : (∃ t, step s = .next t) ∨ ∃ f, step s = .fault f := by
  rcases boundary_cases s with hn | ⟨hn, hl, hi⟩ | hq
  · exact .inl ⟨_, step_nmi hn⟩
  · exact .inl ⟨_, step_irq hn hl hi⟩
  · rw [step_quiet hq]
    rcases exec_form s.fetch with ⟨op, hop⟩ | ⟨f, -, he⟩
    · exact .inr ⟨_, (exec_eq_fault_iff ..).2 ⟨op, hop, rfl⟩⟩
    · exact .inl ⟨f s, he s⟩

/-- Settles O14: a fault comes from the fetch of an undefined instruction, and that from a listed byte. -/
theorem stepFaultsExactlyOnUndefinedOpcodes : Obligations.StepFaultsExactlyOnUndefinedOpcodes := by
  refine ⟨fun s f => ?fault, fun s r h => ?refused, fun i s hdefined => exec_completes hdefined s⟩
  case fault =>
    simp only [step_eq_fault_iff, exec_eq_fault_iff, State.fetch_eq_undefined_iff, State.opcode, and_assoc,
      exists_eq_left]
  case refused =>
    rcases step_outcome s with ⟨t, ht⟩ | ⟨f, hf⟩
    · exact nomatch ht.symm.trans h
    · exact nomatch hf.symm.trans h

/-! ## The two entries (R220 to R222) -/

theorem State.nmiEntry_effect (s : State) : EntryEffect s s.nmiEntry 0xFFFA#16 0xFFFB#16 s.pc false 7 :=
  State.interruptEntry_effect { s with nmiPending := false } (vector := Config.vecNmi) _ false 7 (by decide) (by decide)

theorem State.irqEntry_effect (s : State) : EntryEffect s s.irqEntry 0xFFFE#16 0xFFFF#16 s.pc false 7 :=
  s.interruptEntry_effect (vector := Config.vecIrq) _ false 7 (by decide) (by decide)

theorem State.nmiEntry_nmiPending (s : State) : s.nmiEntry.nmiPending = false := State.interruptEntry_nmiPending ..

theorem State.irqEntry_nmiPending (s : State) : s.irqEntry.nmiPending = s.nmiPending :=
  State.interruptEntry_nmiPending ..

/-- Settles O11: the step is the NMI entry, whatever I and the line are. -/
theorem nmiIsEntered : Obligations.NmiIsEntered := by
  intro s hn
  refine ⟨?_, _, step_nmi hn, s.nmiEntry_nmiPending, s.nmiEntry_effect⟩
  rw [stepTrace_nmi hn, entryAccesses_eq_entryTransactions]; rfl

/-- Settles O12: the step is the IRQ entry, which changes no latch. -/
theorem irqIsEntered : Obligations.IrqIsEntered := by
  intro s hn hl hi
  refine ⟨?_, _, step_irq hn hl hi, s.irqEntry_nmiPending.trans hn, s.irqEntry_effect⟩
  rw [stepTrace_irq hn hl hi, entryAccesses_eq_entryTransactions]; rfl

/-! ## The latches (R213, R214, R235) -/

theorem exec_latches {i : Instr} {s t : State} (h : exec i s = .next t) :
    t.irqLine = s.irqLine ∧ t.nmiPending = s.nmiPending := by
  obtain ⟨f, hf, rfl⟩ := exec_cases h
  exact hf.latches s

/-- R213: a step clears the NMI request it enters, and none other was pending. -/
theorem step_nmiPending {s t : State} (h : step s = .next t) : t.nmiPending = false := by
  rcases step_cases h with ⟨-, rfl⟩ | ⟨hn, -, -, rfl⟩ | ⟨hq, hexec⟩
  · exact s.nmiEntry_nmiPending
  · exact s.irqEntry_nmiPending.trans hn
  · exact (exec_latches hexec).2.trans hq.1

/-- Settles O22: an entry and every form of instruction leave the line, and only an entry touches the request. -/
theorem stepsDoNotRaiseInterrupts : Obligations.StepsDoNotRaiseInterrupts :=
  ⟨fun _ _ h => ⟨(step_latches h).1, step_nmiPending h⟩, fun _ _ _ h => exec_latches h⟩

/-! ## The mask I (R216, R246) -/

/-- The same state with another level on the IRQ line (R235). -/
def State.withIrqLine (s : State) (level : Bool) : State := { s with irqLine := level }

section
variable (s : State) (level : Bool)

theorem readEffect_withIrqLine (m : Mnemonic) (v : Byte) :
    readEffect m v (s.withIrqLine level) = (readEffect m v s).withIrqLine level := by cases m <;> rfl

theorem impliedEffect_withIrqLine (m : Mnemonic) :
    impliedEffect m (s.withIrqLine level) = (impliedEffect m s).withIrqLine level := by cases m <;> rfl

theorem MemMode.ea_withIrqLine (m : MemMode) : m.ea (s.withIrqLine level) = m.ea s := m.ea_congr rfl rfl rfl

theorem branchIf_withIrqLine (cond : Bool) (d : Byte) (base : Nat) :
    branchIf cond d base (s.withIrqLine level) = (branchIf cond d base s).withIrqLine level := by cases cond <;> rfl

theorem ExecForm.withIrqLine {i : Instr} {f : State → State} (hf : ExecForm i f) :
    f (s.withIrqLine level) = (f s).withIrqLine level := by
  cases hf with
  | read src base =>
    cases src with
    | imm b => rw [readClass, readEffect_withIrqLine]; rfl
    | mem m =>
      have hcross : m.crosses (s.withIrqLine level) = m.crosses s := m.crosses_congr rfl rfl rfl
      rw [readClass, readEffect_withIrqLine, Source.value, Source.penalty, m.ea_withIrqLine, hcross]; rfl
  | store m base => simp only [storeClass, m.ea_withIrqLine]; rfl
  | rmw m base => rw [rmwMemory, m.ea_withIrqLine]; rfl
  | implied base => simp only [impliedEffect_withIrqLine]; rfl
  | branch d base => exact branchIf_withIrqLine ..
  | accumulator | jmpAbs | jmpInd | jsr | rts | brk | rti => rfl

theorem exec_withIrqLine (i : Instr) :
    exec i (s.withIrqLine level) = mapNext (fun t => t.withIrqLine level) (exec i s) := by
  rcases exec_form i with ⟨op, rfl⟩ | ⟨f, hf, he⟩
  · rfl
  · rw [he, he, hf.withIrqLine]; rfl

end

/-- Settles O13: with I at 1 the step is an instruction, which takes any level of the line through; an instruction
leaves the latches, so with I at 0 after it the next step is the IRQ entry. -/
theorem irqIsMaskedByI : Obligations.IrqIsMaskedByI := by
  refine ⟨fun s level hn hi => ?masked, fun i s t hn hl hexec hi => ?unmasked⟩
  case masked =>
    rw [step_quiet ⟨hn, .inr hi⟩, step_quiet (s := { s with irqLine := level }) ⟨hn, .inr hi⟩]
    exact exec_withIrqLine s level s.fetch
  case unmasked =>
    obtain ⟨hline, hnmi⟩ := exec_latches hexec
    exact ⟨_, step_irq (hnmi.trans hn) (hline.trans hl) hi, t.irqEntry_effect⟩

/-! ## The return from an entry (R199, R223) -/

/-- An RTI right after an entry finds SP three below its old value, so it pulls the three bytes that the entry
pushed. -/
theorem exec_rti_of_entryEffect {s t : State} {low high ret : Word} {b : Bool} {cycles : Nat}
    (h : EntryEffect s t low high ret b cycles) :
    exec .rti t = .next { s with
      mem := t.mem, pc := ret, cyc := s.cyc + cycles + 6, nmiPending := t.nmiPending } := by
  obtain ⟨hfields, hhigh, hlow, hstatus, -⟩ := h
  have hsp : t.sp = s.sp - 3#8 := congrArg State.sp hfields
  have hp : t.p = { s.p with i := true } := congrArg State.p hfields
  have hslot2 : mkWord 0x01#8 (t.sp + 1#8) = stackSlot s 2 := by
    rw [hsp, stackSlot]; congr 1; bv_omega
  have hslot1 : mkWord 0x01#8 (t.sp + 2#8) = stackSlot s 1 := by
    rw [hsp, stackSlot]; congr 1; bv_omega
  have hslot0 : mkWord 0x01#8 (t.sp + 3#8) = stackSlot s 0 := by
    rw [hsp, stackSlot]; congr 1; bv_omega
  obtain ⟨-, -, hexec⟩ := returnFromInterruptCompletes t
  rw [hexec, hslot0, hslot1, hslot2, hhigh, hlow, hstatus, mkWord_hiByte_loByte, pLoad_pImage, hp, hsp,
    BitVec.sub_add_cancel, hfields]

/-- Settles O55: a step with an interrupt due is one of the two entries, and BRK is the third. -/
theorem returnAfterEntry : Obligations.ReturnAfterEntry := by
  refine ⟨fun s t hdue hstep => ?interrupt, fun s t hbrk => ?brk⟩
  case interrupt =>
    have heffect : ∃ low high, EntryEffect s t low high s.pc false 7 := by
      rcases step_cases hstep with ⟨-, rfl⟩ | ⟨-, -, -, rfl⟩ | ⟨hq, -⟩
      · exact ⟨_, _, s.nmiEntry_effect⟩
      · exact ⟨_, _, s.irqEntry_effect⟩
      · obtain ⟨hn, hmask⟩ := hq
        simp [hn] at hdue
        simp [hdue] at hmask
    obtain ⟨low, high, heffect⟩ := heffect
    rw [exec_rti_of_entryEffect heffect, step_nmiPending hstep]
  case brk =>
    obtain ⟨-, -, u, hexec, hnmi, heffect⟩ := breakCompletes s
    obtain rfl : u = t := Host.Outcome.next.inj (hexec.symm.trans hbrk)
    rw [exec_rti_of_entryEffect heffect, hnmi]

end Sys2Proof.Machine

/-! SUPPORT. The run of `execute` (60_exceptions.md R230 to R233): the cycles of a step, the run loop without its fuel,
and what every call of `execute` keeps, by one induction over its steps. -/

namespace Sys2Proof

/-- The most extra cycles of a cell of the opcode map (R115, R174). -/
def Penalty.most : Penalty → Nat
  | .none => 0
  | .pageCross => 1
  | .branch => 2

end Sys2Proof

namespace Sys2Proof.Machine

/-! ## The cycles of a step (R116, R252) -/

/-- R84: the cells of the defined opcodes, with their largest penalties, cost 2 to 7 cycles. -/
theorem instrEntry_cycles {i : Instr} (h : ∀ op, i ≠ .undefined op) :
    2 ≤ (instrEntry i).baseCycles ∧ (instrEntry i).baseCycles + (instrEntry i).penalty.most ≤ 7 := by
  cases i with
  | undefined op => exact absurd rfl (h op)
  -- The cell of each defined instruction is in the simp set (Laws/Table).
  | _ => simp [Entry.baseCycles, Entry.penalty, Penalty.most]

/-- R116: the penalties that apply add at most the cell's largest. -/
theorem cycleCost_bounds (i : Instr) (s : State) :
    (instrEntry i).baseCycles ≤ cycleCost i s ∧
      cycleCost i s ≤ (instrEntry i).baseCycles + (instrEntry i).penalty.most := by
  have hcross := Bool.toNat_le ((instrOperand i).pageCrossed s)
  rw [cycleCost]
  refine ⟨Nat.le_add_right _ _, Nat.add_le_add_left ?_ _⟩
  cases (instrEntry i).penalty with
  | none => exact Nat.le_refl 0
  | pageCross => exact hcross
  | branch =>
    change (if branchTaken i s then 1 + _ else 0) ≤ 2
    split <;> omega

/-- The cycles of a step lie between 2 and 7 (R252); an entry costs 7 (R221, R222). -/
theorem step_cyc_bounds {s t : State} (h : step s = .next t) : s.cyc + 2 ≤ t.cyc ∧ t.cyc ≤ s.cyc + 7 := by
  rcases step_cases h with ⟨-, rfl⟩ | ⟨-, -, -, rfl⟩ | ⟨-, hexec⟩
  · have hcyc : s.nmiEntry.cyc = s.cyc + 7 := State.interruptEntry_cyc ..
    omega
  · have hcyc : s.irqEntry.cyc = s.cyc + 7 := State.interruptEntry_cyc ..
    omega
  · have hcyc := cyclesAreBasePlusPenalty s.fetch s t hexec
    have hentry := instrEntry_cycles (i := s.fetch) fun op hop => by rw [hop] at hexec; cases hexec
    have hcost := cycleCost_bounds s.fetch s
    omega

/-! ## The run loop (R231) -/

/-- The result of a call after `k` cycles of the same call. -/
def ExecuteResult.addUsed (r : ExecuteResult) (k : Nat) : ExecuteResult := { r with used := k + r.used }

@[simp] theorem ExecuteResult.addUsed_state (r : ExecuteResult) (k : Nat) : (r.addUsed k).state = r.state := rfl
@[simp] theorem ExecuteResult.addUsed_used (r : ExecuteResult) (k : Nat) : (r.addUsed k).used = k + r.used := rfl
@[simp] theorem ExecuteResult.addUsed_stop (r : ExecuteResult) (k : Nat) : (r.addUsed k).stop = r.stop := rfl

theorem executeLoop_spent (fuel : Nat) {budget used : Nat} (s : State) (h : budget ≤ used) :
    executeLoop fuel budget used s = { state := s, used := used, stop := none } := by
  cases fuel with
  | zero => rfl
  | succ fuel => exact if_neg (Nat.not_lt.2 h)

theorem executeLoop_next {fuel budget used : Nat} {s t : State} (h : used < budget) (hstep : step s = .next t) :
    executeLoop (fuel + 1) budget used s = executeLoop fuel budget (used + (t.cyc - s.cyc)) t := by
  rw [executeLoop, if_pos h, hstep]

theorem executeLoop_fault {fuel budget used : Nat} {s : State} {f : Fault} (h : used < budget)
    (hstep : step s = .fault f) :
    executeLoop (fuel + 1) budget used s = { state := s, used := used, stop := some (.fault f) } := by
  rw [executeLoop, if_pos h, hstep]

/-- The loop depends on what is left of the budget only: cycles used before are added to the result, and fuel beyond
what is left plays no part, since a step costs at least one cycle. -/
theorem executeLoop_addUsed {fuel fuel' budget budget' used' k : Nat} (s : State)
    (hleft : budget - (k + used') = budget' - used') (hfuel : budget - (k + used') ≤ fuel)
    (hfuel' : budget' - used' ≤ fuel') :
    executeLoop fuel budget (k + used') s = (executeLoop fuel' budget' used' s).addUsed k := by
  induction fuel generalizing fuel' used' s with
  | zero =>
    rw [executeLoop_spent _ _ (by omega : budget ≤ k + used'), executeLoop_spent _ _ (by omega : budget' ≤ used')]
    rfl
  | succ fuel ih =>
    by_cases h : budget ≤ k + used'
    · rw [executeLoop_spent _ _ h, executeLoop_spent _ _ (by omega : budget' ≤ used')]
      rfl
    · obtain ⟨fuel', rfl⟩ : ∃ n, fuel' = n + 1 := ⟨fuel' - 1, by omega⟩
      have hrun : k + used' < budget := by omega
      have hrun' : used' < budget' := by omega
      rcases step_outcome s with ⟨t, hstep⟩ | ⟨f, hstep⟩
      · have hcost := step_cyc_bounds hstep
        rw [executeLoop_next hrun hstep, executeLoop_next hrun' hstep, Nat.add_assoc]
        exact ih t (by omega) (by omega) (by omega)
      · rw [executeLoop_fault hrun hstep, executeLoop_fault hrun' hstep]
        rfl

/-! ## `execute` by its first step (R231 to R233) -/

theorem execute_of_nonpos {budget : Int} (s : State) (h : budget ≤ 0) :
    execute budget s = { state := s, used := 0, stop := none } := if_pos h

theorem execute_eq_executeLoop (budget : Int) (s : State) :
    execute budget s = executeLoop budget.toNat budget.toNat 0 s := by
  rw [execute]
  split
  next h => rw [executeLoop_spent _ _ (by omega)]
  · rfl

/-- The loop of a positive budget has fuel for a step. -/
theorem execute_eq_executeLoop_succ {budget : Int} (s : State) (h : 0 < budget) :
    execute budget s = executeLoop (budget.toNat - 1 + 1) budget.toNat 0 s := by
  rw [execute_eq_executeLoop, Nat.sub_add_cancel (by omega)]

theorem execute_fault {budget : Int} {s : State} {f : Fault} (h : 0 < budget) (hstep : step s = .fault f) :
    execute budget s = { state := s, used := 0, stop := some (.fault f) } := by
  rw [execute_eq_executeLoop_succ s h, executeLoop_fault (by omega) hstep]

theorem execute_next {budget : Int} {s t : State} (h : 0 < budget) (hstep : step s = .next t) :
    execute budget s = (execute (budget - (t.cyc - s.cyc : Nat)) t).addUsed (t.cyc - s.cyc) := by
  have hcost := step_cyc_bounds hstep
  rw [execute_eq_executeLoop_succ s h, executeLoop_next (by omega) hstep, Nat.add_comm 0, execute_eq_executeLoop]
  exact executeLoop_addUsed t (by omega) (by omega) (by omega)

/-- Settles O57: the guard of `execute`. -/
theorem nonPositiveBudgetRunsNothing : Obligations.NonPositiveBudgetRunsNothing := fun _ s h => execute_of_nonpos s h

/-- Settles O58: the loop's first step, and the rest of the loop as a call of `execute` with what is left. -/
theorem executeRunsStepAfterStep : Obligations.ExecuteRunsStepAfterStep :=
  fun _ _ h => ⟨fun _ hstep => execute_next h hstep, fun _ hstep => execute_fault h hstep⟩

/-! ## What every call of `execute` keeps -/

/-- The induction over the steps of a call: a budget spent, a fault, or one step before the call with what is left. -/
theorem execute_induction {motive : Int → State → ExecuteResult → Prop}
    (spent : ∀ budget s, budget ≤ 0 → motive budget s { state := s, used := 0, stop := none })
    (fault : ∀ budget s f, 0 < budget → step s = .fault f →
      motive budget s { state := s, used := 0, stop := some (.fault f) })
    (next : ∀ budget s t r, 0 < budget → step s = .next t → motive (budget - (t.cyc - s.cyc : Nat)) t r →
      motive budget s (r.addUsed (t.cyc - s.cyc)))
    (budget : Int) (s : State) : motive budget s (execute budget s) := by
  induction hn : budget.toNat using Nat.strong_induction_on generalizing budget s with
  | _ n ih =>
    subst hn
    by_cases h : budget ≤ 0
    · rw [execute_of_nonpos s h]
      exact spent budget s h
    · rcases step_outcome s with ⟨t, hstep⟩ | ⟨f, hstep⟩
      · have hcost := step_cyc_bounds hstep
        rw [execute_next (by omega) hstep]
        exact next budget s t _ (by omega) hstep (ih _ (by omega) _ t rfl)
      · rw [execute_fault (by omega) hstep]
        exact fault budget s f (by omega) hstep

theorem execute_keeps_inv (budget : Int) {s : State} : s.Inv → (execute budget s).state.Inv := by
  refine execute_induction (motive := fun _ s r => s.Inv → r.state.Inv) (fun _ _ _ => id) (fun _ _ _ _ _ => id)
    (fun _ s t _ _ hstep ih hinv => ih ?_) budget s
  exact stepKeepsInvariant s t hinv hstep

/-- Settles O5: `execute` is a run of steps, one call writes a byte of memory, and the others leave memory alone. -/
theorem hostCallKeepsInvariant : Obligations.HostCallKeepsInvariant := by
  intro c s h
  cases c with
  | execute budget => exact execute_keeps_inv budget h
  | writeMem a v => exact State.wf_writeMem a v h
  | writeReg r => cases r <;> exact h
  | writeFlag f => cases f <;> exact h
  | _ => exact h

/-- R231: CYC grows by the cycles returned. -/
theorem execute_cyc (budget : Int) (s : State) : (execute budget s).state.cyc = s.cyc + (execute budget s).used := by
  refine execute_induction (motive := fun _ s r => r.state.cyc = s.cyc + r.used) (fun _ _ _ => rfl)
    (fun _ _ _ _ _ => rfl) (fun _ s t r _ hstep ih => ?_) budget s
  have hcost := step_cyc_bounds hstep
  rw [ExecuteResult.addUsed_state, ExecuteResult.addUsed_used]
  omega

/-- R231: a call that no fault ends uses up its budget. -/
theorem execute_used_ge (budget : Int) (s : State) :
    (execute budget s).stop = none → budget ≤ (execute budget s).used := by
  refine execute_induction (motive := fun budget _ r => r.stop = none → budget ≤ r.used) (fun _ _ h _ => h)
    (fun _ _ _ _ _ => nofun) (fun budget s t r _ _ ih hstop => ?_) budget s
  have hrest := ih hstop
  rw [ExecuteResult.addUsed_used]
  omega

/-- R231: a step begins only while the budget is not used up, and costs at most 7, so what is left stays at -6 or
more. -/
theorem execute_used_le {budget : Int} (s : State) : -6 ≤ budget → ((execute budget s).used : Int) ≤ budget + 6 := by
  refine execute_induction (motive := fun budget _ r => -6 ≤ budget → (r.used : Int) ≤ budget + 6)
    (fun budget s _ h => ?spent) (fun budget s _ _ _ h => ?fault) (fun budget s t r hpos hstep ih _ => ?next) budget s
  case spent => exact neg_le_iff_add_nonneg.1 h
  case fault => exact neg_le_iff_add_nonneg.1 h
  case next =>
    have hcost := step_cyc_bounds hstep
    have hrest := ih (by omega)
    rw [ExecuteResult.addUsed_used]
    omega

/-- Settles O59: the three bounds; a budget of 1 or 2 is spent by the first step, which costs at least 2. -/
theorem executeMeetsItsBudget : Obligations.ExecuteMeetsItsBudget := by
  intro budget s hpos
  refine ⟨fun hstop => ⟨execute_used_ge budget s hstop, execute_used_le s (by omega)⟩, execute_cyc budget s,
    fun t hsmall hstep => ?oneStep⟩
  have hcost := step_cyc_bounds hstep
  rw [execute_next hpos hstep, execute_of_nonpos t (by omega)]
  rfl

/-- R233: a call is stopped by the fault of the step at the state it returns, before the budget is used up. -/
theorem execute_stop (budget : Int) (s : State) {x : Stop} : (execute budget s).stop = some x →
    ∃ f, x = .fault f ∧ step (execute budget s).state = .fault f ∧ ((execute budget s).used : Int) < budget := by
  refine execute_induction
    (motive := fun budget _ r => r.stop = some x → ∃ f, x = .fault f ∧ step r.state = .fault f ∧ (r.used : Int) < budget)
    (fun _ _ _ => nofun) (fun budget s f hpos hstep hstop => ?fault) (fun budget s t r _ _ ih hstop => ?next) budget s
  case fault => exact ⟨f, (Option.some.inj hstop).symm, hstep, hpos⟩
  case next =>
    obtain ⟨f, hx, hfault, hused⟩ := ih hstop
    refine ⟨f, hx, hfault, ?_⟩
    rw [ExecuteResult.addUsed_used]
    omega

/-- Settles O60: the stop, and the growth of CYC that holds of every call. -/
theorem executeEndsAtTheFault : Obligations.ExecuteEndsAtTheFault := by
  intro budget s x _ hstop
  obtain ⟨f, hx, hfault, hused⟩ := execute_stop budget s hstop
  exact ⟨f, hx, hfault, hused, execute_cyc budget s⟩

end Sys2Proof.Machine

/-! SUPPORT. Reset and timing (70_reset_and_hazards.md): the state a reset leaves and the cycle bounds of a step. -/

namespace Sys2Proof.Machine

/-! ## Reset (R240, R241) -/

/-- The vector's high byte is the one after 0xFFFC (R240). -/
theorem State.read16_vecReset (s : State) :
    s.read16 Config.vecReset = mkWord (s.readMem 0xFFFD#16) (s.readMem 0xFFFC#16) := rfl

/-- Settles O1: the model's record update assigns the same fields, PC from the two bytes of the reset vector. -/
theorem resetCallAssigns : Obligations.ResetCallAssigns := by
  refine ⟨fun s => ?_, rfl⟩
  rw [State.resetCall, s.read16_vecReset]
  rfl

/-! ## The cycles of a step (R252, R254) -/

/-- Settles O15: an entry costs 7, and the table bounds base count and penalty of every instruction. -/
theorem stepCostsTwoToSeven : Obligations.StepCostsTwoToSeven := fun _ _ => step_cyc_bounds

end Sys2Proof.Machine
